-- ==== Sys2Proof/Word.lean ====
section
/-! DEFINITION. The word types of the block: the widths of 10_state.md and 41_framedecoder.md rule R160. -/

namespace Sys2Proof

/-- 32 bits: a RawSample, `ACC`, an external count (R160). -/
abbrev Word := BitVec 32

/-- 16 bits: one half of a frame, the device word `w` (R82). -/
abbrev Half := BitVec 16

/-- 8 bits: a byte of a burst transfer (R128), the operand `OP_ARG` (R102). -/
abbrev Byte := BitVec 8

/-- The level of one line: 1 high, 0 low (R12, R33). -/
abbrev Level := BitVec 1

/-- ErrorFlags or ErrorMask: bit 0 OpenCircuit, bit 1 ShortToGround, bit 2 ShortToSupply (R29, R94). -/
abbrev Flags := BitVec 3

/-- The 12-bit internal (cold-junction) field (R26). -/
abbrev Internal := BitVec 12

/-- One command word: bits 2:0 `OP`, bits 7:3 the unit, bits 39:8 the operand.
DESIGN CHOICE (assumption log 1): the spec gives one code for each kind of row, not one layout for all. -/
abbrev Command := BitVec 40

end Sys2Proof
end

