-- ==== Sys2Proof/Config.lean ====
section
/-! DEFINITION. What is fixed for the life of one block, and the free values: constants without a value that no
proof can see (00_scope.md rules R8, R9; 92_eei_decisions.md). -/

namespace Sys2Proof

/-- The construction parameter `MODE` (R8). -/
inductive Mode where
  /-- The block drives the clock and samples one bit at a time. -/
  | bitBang
  /-- The host's serial peripheral transfers four bytes. -/
  | burst
deriving DecidableEq, Repr

/-- The 1-bit strap `MODE_BURST` (R106). -/
def Mode.strap : Mode → BitVec 1
  | .bitBang => 0
  | .burst => 1

namespace Config

/-- `RESET_ERRFLAGS`, any 3-bit value (R9, R36, D7), one for each RESET.
DESIGN CHOICE (assumption log 4): a free value. -/
opaque resetErrFlags : Nat → Flags

/-- `RESET_INTRAW`, any 12-bit value (R9, R36, D7), one for each RESET.
DESIGN CHOICE (assumption log 4): a free value. -/
opaque resetIntRaw : Nat → Internal

/-- `ACC` after RESET: unspecified (R36). DESIGN CHOICE (assumption log 5): a free value. -/
opaque resetAcc : Nat → Word

/-- `BITCNT` after RESET: unspecified (R36). DESIGN CHOICE (assumption log 5): a free value. -/
opaque resetBitcnt : Nat → BitVec 6

/-- `CS_N` after RESET: unspecified until `INIT_PINS` (R36, U9). DESIGN CHOICE (assumption log 5): a free value. -/
opaque resetCsN : Nat → Level

/-- `SCK` after RESET: unspecified until `INIT_PINS` (R36, U9). DESIGN CHOICE (assumption log 5): a free value. -/
opaque resetSck : Nat → Level

/-- The level of `SDI` at the n-th sample when the input list of State does not give it: "free inputs of the
operation, under no law" (R14, D23). DESIGN CHOICE (assumption log 7): the number of the sample is its only index, so
two instances that have taken equally many samples show the same free level. -/
opaque sdiLevel : Nat → Level

/-- `T_SETTLE`, a duration of zero or more (R9, D14). No rule of the model depends on it. DESIGN CHOICE (assumption
log 21): a whole number of one unit, which the spec leaves undefined. -/
opaque tSettle : Nat

/-- How much longer than one unit `T_HOLD` is. DESIGN CHOICE (assumption log 21): a whole number of units. -/
opaque tHoldExtra : Nat

/-- `T_HOLD`, a duration strictly greater than zero (R9, D14). No rule of the model depends on it. DESIGN CHOICE
(assumption log 21): a whole number of the same unit, so at least one. -/
def tHold : Nat := tHoldExtra + 1

/-- What the burst clock is chosen from (assumption log 21). -/
opaque fBurstChoice : Nat

/-- `F_BURST`, at most 4 MHz (R9, R241). No rule of the model depends on it. DESIGN CHOICE (assumption log 21): a whole
number of Hz, and at least 1, where the spec gives the upper bound only. -/
def fBurst : Nat := fBurstChoice % 4000000 + 1

/-- The sign of the pattern of the n-th sentinel drawn: not given (R167). -/
opaque nanSign : Nat → BitVec 1

/-- What the fraction of the pattern of the n-th sentinel drawn is chosen from (R167). -/
opaque nanChoice : Nat → Nat

/-- The fraction of the pattern of the n-th sentinel drawn: any number from 1 to 2^23 - 1 (R167). -/
def nanFraction (n : Nat) : Nat := nanChoice n % 8388607 + 1

/-- `NAN_BITS`: "any binary32 NaN (exponent all ones, fraction non-zero)" (R167, D10), a draw (R16 item 6).
DESIGN CHOICE (assumption log 20): sign and fraction are free values, one pair for each draw, so that no two sentinels
of different draws are known to be equal (N10). -/
def nanBits (n : Nat) : Word :=
  BitVec.ofNat 32 ((nanSign n).toNat * 2 ^ 31 + 255 * 2 ^ 23 + nanFraction n)

end Config
end Sys2Proof
end

