-- ==== Sys2Proof/Syntax.lean ====
section
/-! DEFINITION. The operations of the block, one constructor for each row of spec/opcode_table.json
(30_encoding.md rule R100). -/

namespace Sys2Proof

/-- The two frame layouts (R80, R83). -/
inductive ChipVariant where
  | sixteenBit
  | thirtyTwoBit
deriving DecidableEq, Repr

/-- The operations of R100. -/
inductive Instr where
  /-- `INITIALIZE`, host operation (R181). -/
  | initialise
  /-- `READ_EXT_C`, host operation (R182). -/
  | readExtC
  /-- `READ_INT_C`, host operation (R183). -/
  | readIntC
  /-- `GET_ERR`, host operation (R184). -/
  | getErr
  /-- `SET_MASK`, host operation with an 8-bit operand (R102, R185). -/
  | setMask (bits : Byte)
  /-- `READ32`, internal: one complete bus read (R126). -/
  | read32
  /-- `READ32.BITBANG`, internal: `TRANSFER_BITBANG`, step 3 of `READ32` in BitBang mode (R127). -/
  | read32BitBang
  /-- `READ32.BURST`, internal: `TRANSFER_BURST`, step 3 of `READ32` in Burst mode (R128). -/
  | read32Burst
  /-- `INIT_PINS`, internal micro-operation (R124). -/
  | initPins
  /-- `DECODE` of the RawSample `v` (R153). -/
  | decode (v : Word)
  /-- `CLASSIFY` of the RawSample `v` (R150). -/
  | classify (v : Word)
  /-- `DECODE16` of `v`, whose halves are equal (R151). -/
  | decode16 (v : Word)
  /-- `DECODE32` of `v`, whose halves differ (R152). -/
  | decode32 (v : Word)
  /-- `INT_C` of the 12-bit field `r` (R156). -/
  | intC (r : Internal)
deriving DecidableEq, Repr

/-- The five operations the host can select on its port (R100, R101). -/
def Instr.isHostOp : Instr → Bool
  | .initialise => true
  | .readExtC => true
  | .readIntC => true
  | .getErr => true
  | .setMask _ => true
  | .read32 => false
  | .read32BitBang => false
  | .read32Burst => false
  | .initPins => false
  | .decode _ => false
  | .classify _ => false
  | .decode16 _ => false
  | .decode32 _ => false
  | .intC _ => false

end Sys2Proof
end

