-- ==== Sys2Proof/WellFormed.lean ====
section
/-! DEFINITION. Which terms of Instr are operations of the block: the operand constraints of R151 and R152. -/

namespace Sys2Proof

/-- `v[31:16] == v[15:0]`: the constraint of the SixteenBit layout (R82). -/
def halvesEqual (v : Word) : Bool := v.extractLsb' 16 16 == v.extractLsb' 0 16

/-- The operand of `DECODE16` has equal halves (R151) and that of `DECODE32` has not (R152; assumption log 28).
The other operands are legal at every value of their width (R102, R150, R153, R156). -/
def Instr.wf : Instr → Bool
  | .initialise => true
  | .readExtC => true
  | .readIntC => true
  | .getErr => true
  | .setMask _ => true
  | .read32 => true
  | .read32BitBang => true
  | .read32Burst => true
  | .initPins => true
  | .decode _ => true
  | .classify _ => true
  | .decode16 v => halvesEqual v
  | .decode32 v => !halvesEqual v
  | .intC _ => true

end Sys2Proof
end

