-- ==== Sys2Proof/Decode.lean ====
section
/-! DEFINITION. Command words: decoding, total and rejecting by name, and the encoder.

A command word holds `OP` in bits 2:0, as the host port has it (30_encoding.md rule R101). Bits 7:3 select the
unit and bits 39:8 hold the operand: DESIGN CHOICE (assumption log 1), because the spec encodes its rows in five
places of their own.

| unit | rows | where the row's own encoding stands |
|---|---|---|
| 0 | host operations | `OP` in bits 2:0, `OP_ARG` in bits 15:8 (R101, R102) |
| 1 | `INIT_PINS` | bits 2:0 are the phase code 001 (R123) |
| 2 | `READ32` | bit 0 is the strap, either value (R106, R126) |
| 3 | `READ32.BITBANG`, `READ32.BURST` | bit 0 is the strap, 0 or 1 (R106) |
| 4 | `DECODE`, `CLASSIFY`, `DECODE16`, `DECODE32` | bits 39:8 are the frame (R80 to R82), bits 2:0 the row |
| 5 | `INT_C` | bits 19:8 are the field (R156) |
-/

namespace Sys2Proof

/-- Why a command word is no operation. -/
inductive DecodeError where
  /-- `OP` is 0b101, 0b110 or 0b111: "select no operation" (R103). -/
  | reservedOp (op : BitVec 3)
  /-- The unit or the row selected inside it does not exist in the layout (assumption log 1). -/
  | noSuchRow
  /-- A bit is set that no port or field of the row has (assumption log 1). -/
  | strayBits
  /-- A `DECODE16` frame with different halves or a `DECODE32` frame with equal ones (R81, R82). -/
  | frameLayout
deriving DecidableEq, Repr

namespace Command

/-- `OP[2:0]` (R101). -/
def op (c : Command) : BitVec 3 := c.extractLsb' 0 3

/-- The unit (assumption log 1). -/
def unit (c : Command) : BitVec 5 := c.extractLsb' 3 5

/-- The operand. -/
def arg (c : Command) : Word := c.extractLsb' 8 32

/-- A command word from its three parts. -/
def make (unit : BitVec 5) (op : BitVec 3) (arg : Word) : Command :=
  arg.setWidth 40 <<< 8 ||| unit.setWidth 40 <<< 3 ||| op.setWidth 40

end Command

/-- `i` when the bits `rest` of the word that no port has are 0. -/
def noStray {n : Nat} (rest : BitVec n) (i : Instr) : Except DecodeError Instr :=
  if rest = 0 then .ok i else .error .strayBits

/-- The host operations (R101): `OP_ARG` is `bits` for `SET_MASK` and ignored by the others. DESIGN CHOICE
(assumption log 2): its place in the word. -/
def decodeHostOp (op : BitVec 3) (arg : Word) : Except DecodeError Instr :=
  let stray := arg.extractLsb' 8 24
  match op with
  | 0#3 => noStray stray .initialise
  | 1#3 => noStray stray .readExtC
  | 2#3 => noStray stray .readIntC
  | 3#3 => noStray stray .getErr
  | 4#3 => noStray stray (.setMask (arg.extractLsb' 0 8))
  | _ => .error (.reservedOp op)

/-- `INIT_PINS`: phase code 001 (R123). -/
def decodePhaseRow (op : BitVec 3) (arg : Word) : Except DecodeError Instr :=
  match op with
  | 1#3 => noStray arg .initPins
  | _ => .error .noSuchRow

/-- `READ32`: "either value selects READ32" (opcode_table.json, row READ32). -/
def decodeRead32 (op : BitVec 3) (arg : Word) : Except DecodeError Instr :=
  match op with
  | 0#3 => noStray arg .read32
  | 1#3 => noStray arg .read32
  | _ => .error .noSuchRow

/-- `READ32.BITBANG` and `READ32.BURST`: the strap `MODE_BURST` (R106). -/
def decodeTransfer (op : BitVec 3) (arg : Word) : Except DecodeError Instr :=
  match op with
  | 0#3 => noStray arg .read32BitBang
  | 1#3 => noStray arg .read32Burst
  | _ => .error .noSuchRow

/-- The four operations on a frame, with the constraints of the two layouts (R81, R82). -/
def decodeFrameRow (op : BitVec 3) (v : Word) : Except DecodeError Instr :=
  match op with
  | 0#3 => .ok (.decode v)
  | 1#3 => .ok (.classify v)
  | 2#3 => if halvesEqual v then .ok (.decode16 v) else .error .frameLayout
  | 3#3 => if halvesEqual v then .error .frameLayout else .ok (.decode32 v)
  | _ => .error .noSuchRow

/-- `INT_C`: the 12 bits of the field (R156). -/
def decodeField (op : BitVec 3) (arg : Word) : Except DecodeError Instr :=
  match op with
  | 0#3 => noStray (arg.extractLsb' 12 20) (.intC (arg.extractLsb' 0 12))
  | _ => .error .noSuchRow

/-- The operation a command word stands for. -/
def decodeCommand (c : Command) : Except DecodeError Instr :=
  match c.unit with
  | 0#5 => decodeHostOp c.op c.arg
  | 1#5 => decodePhaseRow c.op c.arg
  | 2#5 => decodeRead32 c.op c.arg
  | 3#5 => decodeTransfer c.op c.arg
  | 4#5 => decodeFrameRow c.op c.arg
  | 5#5 => decodeField c.op c.arg
  | _ => .error .noSuchRow

/-- The command word of an operation. -/
def encodeCommand : Instr → Command
  | .initialise => Command.make 0 0 0
  | .readExtC => Command.make 0 1 0
  | .readIntC => Command.make 0 2 0
  | .getErr => Command.make 0 3 0
  | .setMask bits => Command.make 0 4 (bits.setWidth 32)
  | .initPins => Command.make 1 1 0
  | .read32 => Command.make 2 0 0
  | .read32BitBang => Command.make 3 0 0
  | .read32Burst => Command.make 3 1 0
  | .decode v => Command.make 4 0 v
  | .classify v => Command.make 4 1 v
  | .decode16 v => Command.make 4 2 v
  | .decode32 v => Command.make 4 3 v
  | .intC r => Command.make 5 0 (r.setWidth 32)

/-- The command word of an instruction of `nbits` bits `w`, numbered as opcode_table.json numbers them. A row of 32
bits is a frame, which `DECODE` takes (R80, R153); a row of 12 bits, two whole bytes, is the field of `INT_C` (R156);
any other length is the low bits of the command word, so a bare code is the host port's (R101): DESIGN CHOICE
(assumption log 1). -/
def commandOfTable (nbits w : Nat) : Command :=
  if nbits = 32 then Command.make 4 0 (BitVec.ofNat 32 w)
  else if nbits = 16 then Command.make 5 0 (BitVec.ofNat 32 (w % 2 ^ 16))
  else BitVec.ofNat 40 (w % 2 ^ nbits)

/-- The operation the decoder reads from an instruction whose bits are `w`. -/
def decodeTableWord (nbits w : Nat) : Option Instr :=
  match decodeCommand (commandOfTable nbits w) with
  | .ok i => some i
  | .error _ => none

end Sys2Proof
end

