-- ==== Sys2Proof/Machine/State.lean ====
section
/-! DEFINITION. The state of one block (10_state.md rule R20), its ports (R33, R34), the reasons a step can stop,
and the state after reset (R36, R231). All of it is plain data. -/

namespace Sys2Proof.Machine

/-- The phases of the sequencer (R123). In Burst mode the phase `bitSample` is `BURST_BYTE`, which "shares the code
of BIT_SAMPLE" (R27). -/
inductive Phase where
  | idle
  | initPins
  | select
  | settle
  | bitLow
  | bitSample
  | bitHigh
  | deselect
deriving DecidableEq, Repr

/-- The 3-bit code of `PH` (R123). -/
def Phase.code : Phase → BitVec 3
  | .idle => 0
  | .initPins => 1
  | .select => 2
  | .settle => 3
  | .bitLow => 4
  | .bitSample => 5
  | .bitHigh => 6
  | .deselect => 7

/-- Which operation the sequencer is working for: what R134 means by "operation is `INITIALIZE`".
DEDUCED (assumption log 14). -/
inductive Activity where
  | none
  | initialise
  | initPins
  | readExtC
  | read32
deriving DecidableEq, Repr

/-- A temperature result: the sentinel or an exact count of quarter degrees (R13, R31). -/
inductive Reading where
  /-- The sentinel `NaN`, a tag without payload (R167). -/
  | nan
  /-- A signed count of 0.25 degrees on `RES_Q` (R34). -/
  | quarters (q : Word)
deriving DecidableEq, Repr

/-- What a completed operation returned (R100, column "result"; R34). -/
inductive Result where
  /-- No result, or result ports not known to be valid (R243; assumption log 11). -/
  | none
  /-- `READ_EXT_C`, `DECODE`, `DECODE16`, `DECODE32`: external temperature. -/
  | external (t : Reading)
  /-- `READ_INT_C`, `INT_C`: a signed count of 0.0625 degrees on `RES_Q`. -/
  | internal (q : Word)
  /-- `GET_ERR`: the flags on `RES_FLAGS`. -/
  | flags (f : Flags)
  /-- `READ32` and its transfers: the RawSample. -/
  | rawSample (v : Word)
  /-- `CLASSIFY`: the variant. -/
  | variant (c : ChipVariant)
deriving DecidableEq, Repr

/-- Reasons to stop with a fault. There are none: "No operation of the block raises anything, changes control flow
because of an error, or stops." (R200). Nobody raises a fault, which is safe (assumption log 24). -/
inductive Fault
deriving DecidableEq, Repr

/-- Reasons to give a step no meaning. -/
inductive Refusal where
  /-- Raised by exec for an operation that has no meaning yet; safe. No arm does so now. -/
  | notModelled (mnemonic : String)
  /-- Raised by the fetch for a command word that is no operation, a reserved `OP` code among them (R103, R187);
  safe: the spec says a model refuses it (assumption log 3). -/
  | undecodable (e : DecodeError)
  /-- Raised by the fetch when an operation is presented while `PH` is not `IDLE` (R236, D16); safe: the spec says a
  model refuses it (assumption log 9). -/
  | reentrant
  /-- Raised by the fetch when RESET is asserted while `PH` is not `IDLE` (R230, D2); safe (assumption log 10). -/
  | resetWhileBusy
  /-- Raised by the meanings of `READ32.BITBANG` and `READ32.BURST` when the strap selects the other row (R106);
  safe (assumption log 12). -/
  | strapSelectsOther
deriving DecidableEq, Repr

/-- One block, its ports, and what stands on them. -/
structure State where
  /-- `ACC` (R21). -/
  acc : Word
  /-- `BITCNT` (R22). -/
  bitcnt : BitVec 6
  /-- `PH` (R27). -/
  ph : Phase
  /-- `BEGUN` (R23). -/
  begun : Bool
  /-- `MASK` (R24). -/
  mask : Flags
  /-- `ERRFLAGS` (R25). -/
  errflags : Flags
  /-- `INTRAW` (R26). -/
  intraw : Internal
  /-- `CS_N`, active low (R33). -/
  csN : Level
  /-- `SCK` as the block drives it: in BitBang mode only (R20, R33; assumption log 17). -/
  sck : Level
  /-- The strap `MODE` (R8, R106; assumption log 6). -/
  mode : Mode
  /-- `RST` (R34). -/
  rst : Bool
  /-- `OP`, `OP_ARG` and `OP_GO`: the operation on the port, none when `OP_GO` is 0 (R34; assumption log 8). -/
  request : Option Command
  /-- `OP_DONE` (R34; assumption log 11). -/
  done : Bool
  /-- The result ports (R34; assumption log 11). -/
  res : Result
  /-- The levels `SDI` will show at the next samples, oldest first (R14; assumption log 7). -/
  sdi : List Level
  /-- Model's own: what the sequencer is working for (assumption log 14). -/
  active : Activity
  /-- Model's own: operations the host presents later, each when the block is idle (R180; assumption log 8). -/
  queue : List Command
  /-- Model's own: how many levels have been sampled (assumption log 7). -/
  samples : Nat
  /-- Model's own: how often RESET has recurred (assumption log 10). -/
  resets : Nat
  /-- Model's own: a step is one phase of the sequencer, not a whole operation (assumption log 15). -/
  fine : Bool
deriving DecidableEq, Repr

/-- A block just after its n-th recurrence of RESET, with nothing on its inputs (R36, R231). -/
def State.construct (m : Mode) (n : Nat) : State where
  acc := Config.resetAcc n
  bitcnt := Config.resetBitcnt n
  ph := .idle
  begun := false
  mask := 0b111
  errflags := Config.resetErrFlags n
  intraw := Config.resetIntRaw n
  csN := Config.resetCsN n
  sck := Config.resetSck n
  mode := m
  rst := false
  request := none
  done := false
  res := .none
  sdi := []
  active := .none
  queue := []
  samples := 0
  resets := n
  fine := false

/-- The machine right after reset (R36). The strap is BitBang: DESIGN CHOICE (assumption log 6). -/
def State.reset : State := State.construct .bitBang 0

end Sys2Proof.Machine
end

