-- ==== Sys2Proof/Machine/Operands.lean ====
section
/-! DEFINITION. The fields of a frame and their assembly into counts (30_encoding.md rules R81 to R88;
41_framedecoder.md rules R150, R155, R156, R162). -/

namespace Sys2Proof.Machine

/-- `v[31:16]` (R10). -/
def highHalf (v : Word) : Half := v.extractLsb' 16 16

/-- `v[15:0]`: the device word `w` of a SixteenBit frame (R82). -/
def lowHalf (v : Word) : Half := v.extractLsb' 0 16

/-- `CLASSIFY` (R83, R150): a pure function of the frame, all 32 bits and nothing else. -/
def variantOf (v : Word) : ChipVariant :=
  if highHalf v = lowHalf v then .sixteenBit else .thirtyTwoBit

/-- `CNT13`: `w[15:3]`, unsigned (R82, R87). -/
def cnt13 (w : Half) : BitVec 13 := w.extractLsb' 3 13

/-- `EXT14`: `v[31:18]` (R81, R84). -/
def ext14 (v : Word) : BitVec 14 := v.extractLsb' 18 14

/-- `INT12`: `v[15:4]` (R81, R85). -/
def int12 (v : Word) : Internal := v.extractLsb' 4 12

/-- The count of the SixteenBit path: `q = zext_32(w[15:3])`, never negative (R87). -/
def count16 (v : Word) : Word := (cnt13 (lowHalf v)).setWidth 32

/-- The external sign-extender, 14 to 32 bits, in the form of R155: OR `0xFFFFC000` when bit 13 is set. -/
def extendExternal (f : BitVec 14) : Word :=
  if f.getLsbD 13 then f.setWidth 32 ||| 0xFFFFC000#32 else f.setWidth 32

/-- The count of the ThirtyTwoBit path (R84). -/
def count32 (v : Word) : Word := extendExternal (ext14 v)

/-- The internal sign-extender, 12 to 16 bits, in the form of R156: OR `0xF800` when bit 11 is set (C4). -/
def extendInternal (r : Internal) : Half :=
  if r.getLsbD 11 then r.setWidth 16 ||| 0xF800#16 else r.setWidth 16

/-- `INT_C`: the count `s` of 0.0625 degrees (R156), as `RES_Q` carries it, 32 bits signed (R34). -/
def internalCount (r : Internal) : Word := (extendInternal r).signExtend 32

end Sys2Proof.Machine
end

