-- ==== Sys2Proof/Machine/Flags.lean ====
section
/-! DEFINITION. The error flags of a frame and the error-mask comparator (30_encoding.md rules R86, R88;
41_framedecoder.md rule R154). -/

namespace Sys2Proof.Machine

/-- SixteenBit: `{0, 0, w[2]}`, OpenCircuit at bit 0 (R88; the spec's decision D8, assumption log 18). -/
def flags16 (v : Word) : Flags := ((lowHalf v).extractLsb' 2 1).setWidth 3

/-- ThirtyTwoBit: `v[2:0]`, bit for bit (R86). -/
def flags32 (v : Word) : Flags := v.extractLsb' 0 3

/-- The comparator: `(flt & MASK) != 0` (R154). -/
def suppresses (mask flt : Flags) : Bool := flt &&& mask != 0

/-- The result of a decode: the sentinel when the mask suppresses it, else the count (R154, R203). This is the
masked-error outcome of R207: nothing but the result depends on it. -/
def maskedReading (mask flt : Flags) (q : Word) : Reading :=
  if suppresses mask flt then .nan else .quarters q

end Sys2Proof.Machine
end

