-- ==== Sys2Proof/Machine/Ops.lean ====
section
/-! DEFINITION. Named operations over the state: sampling the data-in line, completing an operation, reset, waiting.

There is no memory and no register file to address (10_state.md rule R32), and there is no exception to take
(60_exceptions.md rules R200, R207): the one error outcome is `maskedReading` of Flags.lean. -/

namespace Sys2Proof.Machine

/-- `sample(SDI)`, `k` samples from now: a free input (R14). Past the end of the input list it is the free value of
that sample: DESIGN CHOICE (assumption log 7, 22), the same for two instances at the same count of samples, though R214
lets instances share nothing. -/
def levelAt (s : State) (k : Nat) : Level := s.sdi.getD k (Config.sdiLevel (s.samples + k))

/-- `n` samples have been taken. -/
def skipLevels (n : Nat) (s : State) : State :=
  { s with sdi := s.sdi.drop n, samples := s.samples + n }

/-- `PeripheralByte()`: 8 samples, the first in bit 7 (R128). -/
def peripheralByte (s : State) : Byte :=
  levelAt s 0 ++ levelAt s 1 ++ levelAt s 2 ++ levelAt s 3 ++ levelAt s 4 ++ levelAt s 5 ++ levelAt s 6 ++ levelAt s 7

/-- The operation has completed and the result ports are valid (R34, R243). -/
def complete (r : Result) (s : State) : State := { s with res := r, done := true }

/-- An operation that used the sequencer has completed: `PH = IDLE` (R243). -/
def completeSequenced (r : Result) (s : State) : State :=
  complete r { s with ph := .idle, active := .none }

/-- An idle block waits for the host's next operation (R36). "nor that a result port holds its value until the next
operation" (R243): the ports are no longer known to be valid (assumption log 11). -/
def waitIdle (s : State) : State := { s with res := .none, done := false }

/-- RESET of a block that exists (R230, R231). `MODE` is fixed (R233) and what stands on the inputs belongs to the
host and the chip (assumption log 10). -/
def applyReset (s : State) : State :=
  { State.construct s.mode (s.resets + 1) with
    request := s.request, queue := s.queue, sdi := s.sdi, samples := s.samples, fine := s.fine }

end Sys2Proof.Machine
end

