-- ==== Sys2Proof/Machine/FrameDecoder.lean ====
section
/-! DEFINITION. FrameDecoder: `CLASSIFY`, `DECODE16`, `DECODE32`, `DECODE`, `INT_C`
(41_framedecoder.md rules R150 to R157). -/

namespace Sys2Proof.Machine

/-- The SixteenBit path (R151): the flags and a zero internal field are written whatever the mask says (R157). -/
def frameDecode16 (v : Word) (s : State) : State × Reading :=
  ({ s with errflags := flags16 v, intraw := 0 }, maskedReading s.mask (flags16 v) (count16 v))

/-- The ThirtyTwoBit path (R152): the flags and the internal field are written whatever the mask says (R157). -/
def frameDecode32 (v : Word) (s : State) : State × Reading :=
  ({ s with errflags := flags32 v, intraw := int12 v }, maskedReading s.mask (flags32 v) (count32 v))

/-- The decode operation (R153). -/
def frameDecode (v : Word) (s : State) : State × Reading :=
  match variantOf v with
  | .sixteenBit => frameDecode16 v s
  | .thirtyTwoBit => frameDecode32 v s

/-- A decode with its result on the ports. -/
def completeReading (d : State × Reading) : State := complete (.external d.2) d.1

/-- `CLASSIFY` (R150): reads no state and writes none. -/
def execClassify (v : Word) (s : State) : Host.Outcome State Fault Refusal :=
  .next (complete (.variant (variantOf v)) s)

/-- `DECODE16` (R151). -/
def execDecode16 (v : Word) (s : State) : Host.Outcome State Fault Refusal :=
  .next (completeReading (frameDecode16 v s))

/-- `DECODE32` (R152). -/
def execDecode32 (v : Word) (s : State) : Host.Outcome State Fault Refusal :=
  .next (completeReading (frameDecode32 v s))

/-- `DECODE` (R153). -/
def execDecode (v : Word) (s : State) : Host.Outcome State Fault Refusal :=
  .next (completeReading (frameDecode v s))

/-- `INT_C` (R156): reads no state and writes none. -/
def execIntC (r : Internal) (s : State) : Host.Outcome State Fault Refusal :=
  .next (complete (.internal (internalCount r)) s)

end Sys2Proof.Machine
end

