-- ==== Sys2Proof/Machine/Sequencer.lean ====
section
/-! DEFINITION. The sequencer: the action of each phase (40_bittransport.md rule R123), its transitions (R134) and
its least waits (R123, R242).

A phase's action happens when the phase is entered (R135: event 1 is `CS_N` 1 -> 0 with `PH = SELECT`);
DEDUCED (assumption log 16). -/

namespace Sys2Proof.Machine

/-- `INIT_PINS` (R124): `CS_N` idles high, `BEGUN <- 1`, and in BitBang mode `SCK` idles low (the spec's decision D5,
assumption log 17). -/
def enterInitPins (s : State) : State :=
  match s.mode with
  | .bitBang => { s with ph := .initPins, csN := 1, begun := true, sck := 0 }
  | .burst => { s with ph := .initPins, csN := 1, begun := true }

/-- `SELECT`: protocol step 1 (R121, R123). -/
def enterSelect (s : State) : State := { s with ph := .select, csN := 0 }

/-- `SETTLE`: protocol step 2; the accumulator and the counter are cleared (R123, R126, R131; D6, assumption
log 26). -/
def enterSettle (s : State) : State := { s with ph := .settle, acc := 0, bitcnt := 0 }

/-- `BIT_LOW` (R123, R127). -/
def enterBitLow (s : State) : State := { s with ph := .bitLow, sck := 0 }

/-- `BIT_SAMPLE`: shift first, then OR the sample into bit 0 (R123, R127). -/
def enterBitSample (s : State) : State :=
  skipLevels 1
    { s with ph := .bitSample, acc := (s.acc <<< 1) ||| (levelAt s 0).setWidth 32, bitcnt := s.bitcnt + 1 }

/-- `BURST_BYTE` (R123, R128). -/
def enterBurstByte (s : State) : State :=
  skipLevels 8
    { s with ph := .bitSample, acc := (s.acc <<< 8) ||| (peripheralByte s).setWidth 32, bitcnt := s.bitcnt + 8 }

/-- `BIT_HIGH` (R123, R127). -/
def enterBitHigh (s : State) : State := { s with ph := .bitHigh, sck := 1 }

/-- `DESELECT`: protocol step 4 (R121, R123). -/
def enterDeselect (s : State) : State := { s with ph := .deselect, csN := 1 }

/-- `DESELECT` to `IDLE`: "`READ32` returns `ACC`; `DECODE` follows within the same host operation" (R134). -/
def finishRead (s : State) : State :=
  match s.active with
  | .readExtC =>
    let d := frameDecode s.acc s
    completeSequenced (.external d.2) d.1
  | .read32 => completeSequenced (.rawSample s.acc) s
  | .none => completeSequenced (.rawSample s.acc) s
  | .initialise => completeSequenced (.rawSample s.acc) s
  | .initPins => completeSequenced (.rawSample s.acc) s

/-- One transition of R134 with the action of the phase it enters. A count above 32, which no read reaches, goes on
as 32 does: DESIGN CHOICE (assumption log 25). -/
def tick (s : State) : State :=
  match s.ph with
  | .idle => s
  | .initPins =>
    match s.active with
    | .readExtC => enterSelect s
    | .read32 => enterSelect s
    | .initialise => completeSequenced .none s
    | .initPins => completeSequenced .none s
    | .none => completeSequenced .none s
  | .select => enterSettle s
  | .settle =>
    match s.mode with
    | .bitBang => enterBitLow s
    | .burst => enterBurstByte s
  | .bitLow => enterBitSample s
  | .bitSample =>
    match s.mode with
    | .bitBang => enterBitHigh s
    | .burst => if s.bitcnt < 32 then enterBurstByte s else enterDeselect s
  | .bitHigh => if s.bitcnt < 32 then enterBitLow s else enterDeselect s
  | .deselect => finishRead s

/-- An operation begins: nothing is done yet. -/
def begin (a : Activity) (s : State) : State := { s with active := a, done := false, res := .none }

/-- `IDLE`, host starts `INITIALIZE` (R134). -/
def startInitPins (a : Activity) (s : State) : State := enterInitPins (begin a s)

/-- `IDLE`, host starts a read: `INIT_PINS` when `BEGUN = 0`, else `SELECT` (R122, R134). -/
def startRead (a : Activity) (s : State) : State :=
  if s.begun then enterSelect (begin a s) else enterInitPins (begin a s)

/-- The first phase of an operation that uses the sequencer; none for the others, which "never leave" `IDLE`
(R134) or are not operations of the sequencer. -/
def startPhase (i : Instr) (s : State) : Option State :=
  match i with
  | .initialise => some (startInitPins .initialise s)
  | .readExtC => some (startRead .readExtC s)
  | .read32 => some (startRead .read32 s)
  | .initPins => some (startInitPins .initPins s)
  | .readIntC => none
  | .getErr => none
  | .setMask _ => none
  | .read32BitBang => none
  | .read32Burst => none
  | .decode _ => none
  | .classify _ => none
  | .decode16 _ => none
  | .decode32 _ => none
  | .intC _ => none

/-- The least wait of a phase: `T_SETTLE` in `SETTLE`, `T_HOLD` in `BIT_LOW` and `BIT_HIGH` (R123, R242). Information
only (R240; assumption log 21). -/
def leastWait : Phase → Nat
  | .idle => 0
  | .initPins => 0
  | .select => 0
  | .settle => Config.tSettle
  | .bitLow => Config.tHold
  | .bitSample => 0
  | .bitHigh => Config.tHold
  | .deselect => 0

/-- The least time the next `n` transitions spend in the phases they leave (R134: "when the phase's action (with its
wait) is complete"). -/
def leastTime : Nat → State → Nat
  | 0, _ => 0
  | n + 1, s => leastWait s.ph + leastTime n (tick s)

end Sys2Proof.Machine
end

