-- ==== Sys2Proof/Machine/BitTransport.lean ====
section
/-! DEFINITION. BitTransport: `INIT_PINS`, `READ32` and its two transfers (40_bittransport.md rules R120 to R133). -/

namespace Sys2Proof.Machine

/-- One iteration of `TRANSFER_BITBANG` (R127). -/
def bitCycle (s : State) : State := enterBitHigh (enterBitSample (enterBitLow s))

/-- `TRANSFER_BITBANG` (R127): "repeat 32 times". -/
def transferBitBang (s : State) : State := bitCycle^[32] s

/-- `TRANSFER_BURST` (R128): "repeat 4 times". -/
def transferBurst (s : State) : State := enterBurstByte^[4] s

/-- Protocol step 3 in the mode of the block (R121, R126). -/
def transfer (s : State) : State :=
  match s.mode with
  | .bitBang => transferBitBang s
  | .burst => transferBurst s

/-- Lazy initialisation (R122). -/
def ensureBegun (s : State) : State := if s.begun then s else enterInitPins s

/-- `READ32` up to its return (R126): the RawSample is then in `ACC`. -/
def readFrame (s : State) : State :=
  enterDeselect (transfer (enterSettle (enterSelect (ensureBegun s))))

/-- `INIT_PINS` (R124), as an operation of its own. -/
def execInitPins (s : State) : Host.Outcome State Fault Refusal :=
  .next (completeSequenced .none (enterInitPins s))

/-- `READ32` (R126): returns `ACC`. -/
def execRead32 (s : State) : Host.Outcome State Fault Refusal :=
  let t := readFrame s
  .next (completeSequenced (.rawSample t.acc) t)

/-- `READ32.BITBANG` (R127): the transfer alone. Refused in a block whose strap selects Burst (R106; assumption
log 12). -/
def execRead32BitBang (s : State) : Host.Outcome State Fault Refusal :=
  match s.mode with
  | .bitBang =>
    let t := transferBitBang s
    .next (completeSequenced (.rawSample t.acc) t)
  | .burst => .refused .strapSelectsOther

/-- `READ32.BURST` (R128): the transfer alone. Refused in a block whose strap selects BitBang (R106; assumption
log 12). -/
def execRead32Burst (s : State) : Host.Outcome State Fault Refusal :=
  match s.mode with
  | .burst =>
    let t := transferBurst s
    .next (completeSequenced (.rawSample t.acc) t)
  | .bitBang => .refused .strapSelectsOther

end Sys2Proof.Machine
end

