-- ==== Sys2Proof/Machine/HostOps.lean ====
section
/-! DEFINITION. The host operations (42_host_ops.md rules R180 to R185). -/

namespace Sys2Proof.Machine

/-- `INITIALIZE` (R181): always performs `INIT_PINS`. -/
def execInitialise (s : State) : Host.Outcome State Fault Refusal :=
  .next (completeSequenced .none (enterInitPins s))

/-- `READ_EXT_C` (R182): `READ32`, then `DECODE` of its RawSample. -/
def execReadExtC (s : State) : Host.Outcome State Fault Refusal :=
  let t := readFrame s
  let d := frameDecode t.acc t
  .next (completeSequenced (.external d.2) d.1)

/-- `READ_INT_C` (R183): `INT_C(INTRAW)`, without a bus transfer (the spec's decision D9, assumption log 19). -/
def execReadIntC (s : State) : Host.Outcome State Fault Refusal :=
  .next (complete (.internal (internalCount s.intraw)) s)

/-- `GET_ERR` (R184): the flags, "independent of masking". -/
def execGetErr (s : State) : Host.Outcome State Fault Refusal :=
  .next (complete (.flags s.errflags) s)

/-- `SET_MASK` (R185): `MASK <- bits[2:0]`. -/
def execSetMask (bits : Byte) (s : State) : Host.Outcome State Fault Refusal :=
  .next (complete .none { s with mask := bits.extractLsb' 0 3 })

end Sys2Proof.Machine
end

