-- ==== Sys2Proof/Machine/Numerics.lean ====
section
/-! DEFINITION. The numeric reading of a result: exact degrees, binary32 patterns and the result ports
(10_state.md rules R31, R34; 41_framedecoder.md rules R165 to R169). -/

namespace Sys2Proof.Machine

/-- The binary32 pattern of `q / 2^k` for a count of at most 24 bits: sign, exponent, fraction (R166, D10).
A count of 0 is +0.0 (R168). PRESUMED (assumption log 27): the fields of the format. -/
def binary32 (q : Int) (k : Nat) : Word :=
  let n := q.natAbs
  let p := n.log2
  let sign := if q < 0 then 1 else 0
  if n = 0 then 0
  else BitVec.ofNat 32 (sign * 2 ^ 31 + (p + 127 - k) * 2 ^ 23 + (n - 2 ^ p) * 2 ^ (23 - p))

/-- The number a finite binary32 pattern denotes; none for an infinity or a NaN. IEEE 754, which R166 takes as the
format: PRESUMED (assumption log 27). -/
def binary32Value (b : Word) : Option ℚ :=
  let e := (b.extractLsb' 23 8).toNat
  let f := (b.extractLsb' 0 23).toNat
  let sign : ℚ := if b.getLsbD 31 then -1 else 1
  if e = 255 then none
  else if e = 0 then some (sign * f / 2 ^ 149)
  else some (sign * (2 ^ 23 + f) * 2 ^ e / 2 ^ 150)

/-- An external result in degrees: `q * 0.25`; none is the sentinel (R13, R165). -/
def Reading.celsius : Reading → Option ℚ
  | .nan => none
  | .quarters q => some (q.toInt / 4)

/-- An external result as a float (R31, R166, R167). A sentinel's pattern is a draw, numbered by `draw`, and two
sentinels carry the same pattern only under the same draw: DESIGN CHOICE (assumption log 20), for the spec leaves open
whether they do (R16 item 6, R167, N10). -/
def Reading.float (draw : Nat) : Reading → Word
  | .nan => Config.nanBits draw
  | .quarters q => binary32 q.toInt 2

/-- An internal result in degrees: `s * 0.0625` (R156, R165). -/
def internalCelsius (q : Word) : ℚ := q.toInt / 16

/-- An internal result as a float (R166). -/
def internalFloat (q : Word) : Word := binary32 q.toInt 4

/-- `RES_NAN`, where the spec gives it (R34, R169). -/
def resNan (s : State) : Option (BitVec 1) :=
  match s.res with
  | .external .nan => some 1
  | .external (.quarters _) => some 0
  | .internal _ => some 0
  | .flags _ => none
  | .rawSample _ => none
  | .variant _ => none
  | .none => none

/-- `RES_Q`, where the spec gives it: "unspecified when `RES_NAN = 1`", and "a model must not expose it"
(R34, D11). -/
def resQ (s : State) : Option Word :=
  match s.res with
  | .external .nan => none
  | .external (.quarters q) => some q
  | .internal q => some q
  | .flags _ => none
  | .rawSample _ => none
  | .variant _ => none
  | .none => none

/-- `RES_FLAGS`, where the spec gives it (R34). -/
def resFlags (s : State) : Option Flags :=
  match s.res with
  | .flags f => some f
  | .external _ => none
  | .internal _ => none
  | .rawSample _ => none
  | .variant _ => none
  | .none => none

end Sys2Proof.Machine
end

