-- ==== Sys2Proof/Machine/Dispatch.lean ====
section
/-! DEFINITION. One arm for each operation of the block. -/

namespace Sys2Proof.Machine

/-- The effect of an operation, from its start to its end (30_encoding.md rule R100). -/
def exec (i : Instr) (s : State) : Host.Outcome State Fault Refusal :=
  match i with
  -- host operations (42_host_ops.md)
  | .initialise => Sys2Proof.Machine.execInitialise s
  | .readExtC => Sys2Proof.Machine.execReadExtC s
  | .readIntC => Sys2Proof.Machine.execReadIntC s
  | .getErr => Sys2Proof.Machine.execGetErr s
  | .setMask bits => Sys2Proof.Machine.execSetMask bits s
  -- BitTransport (40_bittransport.md)
  | .read32 => Sys2Proof.Machine.execRead32 s
  | .read32BitBang => Sys2Proof.Machine.execRead32BitBang s
  | .read32Burst => Sys2Proof.Machine.execRead32Burst s
  | .initPins => Sys2Proof.Machine.execInitPins s
  -- FrameDecoder (41_framedecoder.md)
  | .decode v => Sys2Proof.Machine.execDecode v s
  | .classify v => Sys2Proof.Machine.execClassify v s
  | .decode16 v => Sys2Proof.Machine.execDecode16 v s
  | .decode32 v => Sys2Proof.Machine.execDecode32 v s
  | .intC r => Sys2Proof.Machine.execIntC r s

end Sys2Proof.Machine
end

