-- ==== Sys2Proof/Machine/Fetch.lean ====
section
/-! DEFINITION. What the next step is: reset, an operation presented on the port, the next phase of the operation in
progress, or waiting (42_host_ops.md rule R180; 70_reset_and_hazards.md rules R230, R236). -/

namespace Sys2Proof.Machine

/-- What a step has to do. -/
inductive Fetched where
  /-- Run this operation in this state. -/
  | run (i : Instr) (s : State)
  /-- The step ends in this state. -/
  | advance (s : State)
  /-- The step has no meaning. -/
  | refuse (r : Refusal)

/-- An operation begins: as a whole, or at its first phase when the block is watched phase by phase
(assumption log 15). -/
def launch (i : Instr) (s : State) : Fetched :=
  match s.fine, startPhase i s with
  | true, some t => .advance t
  | true, none => .run i s
  | false, _ => .run i s

/-- The command word `c` is presented to an idle block (R101, R103). -/
def accept (c : Command) (s : State) : Fetched :=
  match decodeCommand c with
  | .ok i => launch i s
  | .error e => .refuse (.undecodable e)

/-- An idle block takes the operation on its port, else the host's next one, else it waits (R180). -/
def fetchIdle (s : State) : Fetched :=
  match s.request, s.queue with
  | some c, _ => accept c { s with request := none }
  | none, c :: cs => accept c { s with queue := cs }
  | none, [] => .advance (waitIdle s)

/-- A busy block goes on; an operation presented meanwhile is refused (R236, D16). -/
def fetchBusy (s : State) : Fetched :=
  match s.request with
  | some _ => .refuse .reentrant
  | none => .advance (tick s)

/-- RESET "at any time the block is in `IDLE`" (R230). -/
def fetchReset (s : State) : Fetched :=
  match s.ph with
  | .idle => .advance (applyReset s)
  | _ => .refuse .resetWhileBusy

/-- What the next step has to do. -/
def fetch (s : State) : Fetched :=
  match s.rst, s.ph with
  | true, _ => fetchReset s
  | false, .idle => fetchIdle s
  | false, _ => fetchBusy s

/-- The strap a mode-specific transfer needs (R106); the other operations run under either. -/
def strapFor (c : Command) (m : Mode) : Mode :=
  match decodeCommand c with
  | .ok .read32BitBang => .bitBang
  | .ok .read32Burst => .burst
  | .ok _ => m
  | .error _ => m

/-- The command word `c` on the port of an idle block, to be run as a whole by the next step. -/
def present (c : Command) (s : State) : State :=
  { s with rst := false, ph := .idle, fine := false, request := some c, mode := strapFor c s.mode }

end Sys2Proof.Machine
end

