-- ==== Sys2Proof/Machine/Step.lean ====
section
/-! DEFINITION. One step of the machine. -/

namespace Sys2Proof.Machine

/-- A step: what the fetch finds, done. -/
def step (s : State) : Host.Outcome State Fault Refusal :=
  match fetch s with
  | .run i t => exec i t
  | .advance t => .next t
  | .refuse r => .refused r

/-- `s` with the instruction of `nbits` bits `w` on the port, so that the next step runs it (assumption log 23). -/
def State.withFetchWord (s : State) (nbits w : Nat) : State := present (commandOfTable nbits w) s

end Sys2Proof.Machine
end

