-- ==== Sys2Proof/Safety.lean ====
section
/-! DEFINITION. The terms claims use: what a sampled frame is, the invariant of the sequencer and its pins, the host's
duties, and a safe run. -/

namespace Sys2Proof.Safety

open Sys2Proof.Machine

/-- `v` is the RawSample of the next 32 samples: `v[31-k] = s_k` (20_memory.md rule R51). -/
def SamplesAre (s : State) (v : Word) : Prop :=
  ∀ k < 32, v.getLsbD (31 - k) = (levelAt s k == 1)

/-- What holds between any two steps of a block (10_state.md rules R20, R27; 40_bittransport.md rules R123, R132,
R135). -/
structure Inv (s : State) : Prop where
  /-- Between operations `PH = IDLE`, and only then is nothing in progress (R27). -/
  idle_iff : s.ph = .idle ↔ s.active = .none
  /-- `CS_N = 1` between operations once the pins are established (R132, R215). -/
  idle_deselected : s.ph = .idle → s.begun = true → s.csN = 1
  /-- No phase runs before the pins are established (R122). -/
  busy_begun : s.ph ≠ .idle → s.begun = true
  /-- Only a read goes past `INIT_PINS` (R134). -/
  reading : s.ph ≠ .idle → s.ph ≠ .initPins → s.active = .readExtC ∨ s.active = .read32
  /-- Pins in `INIT_PINS` (R124). -/
  initPins : s.ph = .initPins → s.csN = 1
  /-- Pins in `SELECT` (R121). -/
  select : s.ph = .select → s.csN = 0
  /-- The accumulator and the counter are clear in `SETTLE` (R123). -/
  settle : s.ph = .settle → s.csN = 0 ∧ s.acc = 0 ∧ s.bitcnt = 0
  /-- `BIT_LOW` exists in BitBang mode only (R27); fewer than 32 bits are sampled. -/
  bitLow : s.ph = .bitLow → s.csN = 0 ∧ s.mode = .bitBang ∧ s.sck = 0 ∧ s.bitcnt < 32
  /-- In `BIT_SAMPLE` and `BURST_BYTE` 1 to 32 bits are sampled (R22). -/
  bitSample : s.ph = .bitSample → s.csN = 0 ∧ 0 < s.bitcnt ∧ s.bitcnt ≤ 32
  /-- "The sample is taken while `SCK` is low" (R127). -/
  bitSample_bitBang : s.ph = .bitSample → s.mode = .bitBang → s.sck = 0
  /-- "In `Burst` mode it counts bits in steps of 8" (R22). -/
  burstByte : s.ph = .bitSample → s.mode = .burst → s.bitcnt.extractLsb' 0 3 = 0
  /-- `BIT_HIGH` exists in BitBang mode only (R27). -/
  bitHigh : s.ph = .bitHigh → s.csN = 0 ∧ s.mode = .bitBang ∧ s.sck = 1 ∧ 0 < s.bitcnt ∧ s.bitcnt ≤ 32
  /-- A read ends after exactly 32 samples (R54). -/
  deselect : s.ph = .deselect → s.csN = 1 ∧ s.bitcnt = 32

/-- The strap lets the operation exist in this block (R106). -/
def strapSelects (m : Mode) : Instr → Bool
  | .read32BitBang => m == .bitBang
  | .read32Burst => m == .burst
  | .initialise => true
  | .readExtC => true
  | .readIntC => true
  | .getErr => true
  | .setMask _ => true
  | .read32 => true
  | .initPins => true
  | .decode _ => true
  | .classify _ => true
  | .decode16 _ => true
  | .decode32 _ => true
  | .intC _ => true

/-- The command word stands for an operation this block has. -/
def Runnable (m : Mode) (c : Command) : Prop :=
  ∃ i, decodeCommand c = .ok i ∧ strapSelects m i = true

/-- The host's duties (R230, R236, R239): nothing is presented to a busy block, and only operations that exist. -/
structure HostDuties (s : State) : Prop where
  /-- "overlap operations on one instance" is what the host never does (R239). -/
  no_overlap : s.ph ≠ .idle → s.request = none
  /-- RESET "may recur only while idle" (D2). -/
  no_reset : s.ph ≠ .idle → s.rst = false
  /-- What stands on the port is an operation of this block. -/
  request_runs : ∀ c, s.request = some c → Runnable s.mode c
  /-- So is everything the host presents later. -/
  queue_runs : ∀ c ∈ s.queue, Runnable s.mode c

/-- `n` steps, stopping at the first fault or refusal: `Host.Core.run` of this machine, at its own types. -/
def runSteps : Nat → State → Host.Outcome State Fault Refusal
  | 0, s => .next s
  | n + 1, s =>
    match step s with
    | .next t => runSteps n t
    | .fault r => .fault r
    | .refused r => .refused r

/-- A safe run: every number of steps ends in a state, with no fault and no refusal. -/
def SafeRun (s : State) : Prop := ∀ n, ∃ t, runSteps n s = .next t

/-- Two states agree on everything the sequencer decides by: no data of the line is among it (R134). -/
structure SameControl (s t : State) : Prop where
  ph : s.ph = t.ph
  bitcnt : s.bitcnt = t.bitcnt
  begun : s.begun = t.begun
  csN : s.csN = t.csN
  sck : s.sck = t.sck
  mode : s.mode = t.mode
  active : s.active = t.active
  request : s.request = t.request
  queue : s.queue = t.queue
  rst : s.rst = t.rst
  done : s.done = t.done
  fine : s.fine = t.fine

end Sys2Proof.Safety
end

