-- ==== Sys2Proof/Certificates/Slice0/Obligations.lean ====
section
/-! DEFINITION. The statements for the provers. `done`, `res` and the ports they stand for are the spec's rendering of
a return (D1) as the model has it (assumption log 11). -/

open Sys2Proof Sys2Proof.Machine Sys2Proof.Safety

/-! ## Command words -/

/-- Every well-formed operation is read back from its command word. The layout is the model's (assumption log 1). -/
def Obligations.CommandWordsRoundTrip : Prop :=
  ∀ i : Instr, i.wf = true → decodeCommand (encodeCommand i) = .ok i

/-- Whatever the decoder accepts is well formed: a `DECODE16` frame has equal halves, a `DECODE32` frame has not. -/
def Obligations.DecodedOperationsAreWellFormed : Prop :=
  ∀ (c : Command) (i : Instr), decodeCommand c = .ok i → i.wf = true

/-- Words written out from R101, R106, R123, R81, R82 and R156, in the model's layout (assumption log 1). -/
def Obligations.WrittenOutWordsDecode : Prop :=
  decodeCommand 0x0000000000 = .ok .initialise ∧
  decodeCommand 0x0000000001 = .ok .readExtC ∧
  decodeCommand 0x0000000002 = .ok .readIntC ∧
  decodeCommand 0x0000000003 = .ok .getErr ∧
  decodeCommand 0x000000FA04 = .ok (.setMask 0xFA) ∧
  decodeCommand 0x0000000009 = .ok .initPins ∧
  decodeCommand 0x0000000019 = .ok .read32Burst ∧
  decodeCommand 0x0190019022 = .ok (.decode16 0x01900190) ∧
  decodeCommand 0x0190010023 = .ok (.decode32 0x01900100) ∧
  decodeCommand 0x00000C9028 = .ok (.intC 0xC90)

/-- The select code of R101 (the spec's decision D3), at every value of `OP` and `OP_ARG`: `OP_ARG` matters to
`SET_MASK` only and the codes 5 to 7 are refused (D15). So the host port reaches host operations only. -/
def Obligations.HostPortSelectCode : Prop :=
  ∀ (op : BitVec 3) (arg : Byte),
    decodeCommand (Command.make 0 op (arg.setWidth 32)) =
      if op = 0 then .ok .initialise
      else if op = 1 then .ok .readExtC
      else if op = 2 then .ok .readIntC
      else if op = 3 then .ok .getErr
      else if op = 4 then .ok (.setMask arg)
      else .error (.reservedOp op)

/-! ## One step -/

/-- An idle block runs the operation on its port, or else the next one of the host's list: a step is `exec` of the
decoded operation, in the state from which that request is taken. -/
def Obligations.StepRunsThePresentedOperation : Prop :=
  ∀ (s : State) (c : Command) (i : Instr),
    s.rst = false → s.ph = .idle → s.fine = false → decodeCommand c = .ok i →
      (s.request = some c → step s = exec i { s with request := none }) ∧
      (∀ cs, s.request = none → s.queue = c :: cs → step s = exec i { s with queue := cs })

/-- A block watched phase by phase runs at once the operations without a phase of the sequencer; the model's choice
(assumption log 15). -/
def Obligations.StepRunsUnsequencedOperationWatched : Prop :=
  ∀ (s : State) (c : Command) (i : Instr),
    s.rst = false → s.ph = .idle → s.fine = true → s.request = some c → decodeCommand c = .ok i →
    i ≠ .initialise → i ≠ .readExtC → i ≠ .read32 → i ≠ .initPins →
      step s = exec i { s with request := none }

/-- The instruction placed on the port is run by the very next step, whatever the block was doing. -/
def Obligations.PlacedWordRunsNext : Prop :=
  ∀ (s : State) (nbits w : Nat) (i : Instr), decodeTableWord nbits w = some i →
    ∃ t, step (s.withFetchWord nbits w) = exec i t ∧
      t = { s with rst := false, ph := .idle, fine := false, request := none, mode := t.mode } ∧
      (strapSelects s.mode i = true → t.mode = s.mode) ∧ strapSelects t.mode i = true

/-- A block with nothing on its inputs waits; its result ports are no longer known to be valid (the model's choice,
assumption log 11). -/
def Obligations.IdleBlockWaits : Prop :=
  ∀ s : State, s.rst = false → s.ph = .idle → s.request = none → s.queue = [] →
    step s = .next { s with res := .none, done := false }

/-- Where a step is refused: a reserved code (R103, decision D15), an operation presented to a busy block (R236,
decision D16), RESET of a busy block (R230, decision D2). -/
def Obligations.StepRefusals : Prop :=
  (∀ (s : State) (op : BitVec 3) (arg : Byte),
    s.rst = false → s.ph = .idle → 5 ≤ op → s.request = some (Command.make 0 op (arg.setWidth 32)) →
      step s = .refused (.undecodable (.reservedOp op))) ∧
  (∀ (s : State) (c : Command), s.rst = false → s.ph ≠ .idle → s.request = some c →
      step s = .refused .reentrant) ∧
  (∀ s : State, s.rst = true → s.ph ≠ .idle → step s = .refused .resetWhileBusy)

/-! ## Reset -/

/-- What the spec gives the state after reset: `MASK`, `BEGUN`, `PH` (R36), in a block of either mode and after every
recurrence; State.reset is one of these states, by the model's choice that of BitBang (assumption log 6). -/
def Obligations.ResetState : Prop :=
  (∀ (m : Mode) (n : Nat),
    (State.construct m n).mask = 0b111 ∧ (State.construct m n).begun = false ∧ (State.construct m n).ph = .idle ∧
    (State.construct m n).mode = m ∧ (State.construct m n).request = none ∧ (State.construct m n).queue = []) ∧
  State.reset = State.construct .bitBang 0

/-- RESET of an idle block (R230, R231; decision D2): the defined values, the strap kept, and the open registers at
the spec's open parameters. -/
def Obligations.ResetMayRecurWhileIdle : Prop :=
  ∀ s : State, s.rst = true → s.ph = .idle →
    ∃ t, step s = .next t ∧ t.mask = 0b111 ∧ t.begun = false ∧ t.ph = .idle ∧ t.mode = s.mode ∧
      t.errflags = Config.resetErrFlags t.resets ∧ t.intraw = Config.resetIntRaw t.resets ∧
      t.request = s.request ∧ t.queue = s.queue ∧ t.sdi = s.sdi ∧ t.rst = false

/-! ## Pins and the bus -/

/-- `INITIALIZE` (R181, R124): pins at their idle levels, `BEGUN` set, nothing else; doing it twice is doing it once.
`SCK` low in BitBang mode is the spec's decision D5. -/
def Obligations.InitializeEstablishesThePins : Prop :=
  ∀ s : State, ∃ t, exec .initialise s = .next t ∧
    t = { s with begun := true, csN := 1, sck := if s.mode = .bitBang then 0 else s.sck,
                 ph := .idle, active := .none, res := .none, done := true } ∧
    exec .initialise t = .next t

/-- `INIT_PINS` alone (R124). -/
def Obligations.InitPinsEstablishesThePins : Prop :=
  ∀ s : State, exec .initPins s = .next
    { s with begun := true, csN := 1, sck := if s.mode = .bitBang then 0 else s.sck,
             ph := .idle, active := .none, res := .none, done := true }

/-- `READ32` (R126, R51): in either mode the RawSample of the next 32 samples, most significant first; the pins
established if they were not (R122), `CS_N = 1` and in BitBang mode `SCK = 1` at the end (R132); nothing else. -/
def Obligations.Read32ReturnsTheSampledFrame : Prop :=
  ∀ s : State, ∃ v, SamplesAre s v ∧
    exec .read32 s = .next
      { s with begun := true, csN := 1, sck := if s.mode = .bitBang then 1 else s.sck,
               acc := v, bitcnt := 32, sdi := s.sdi.drop 32, samples := s.samples + 32,
               ph := .idle, active := .none, res := .rawSample v, done := true }

/-- `TRANSFER_BITBANG` (R127): 32 samples shifted in, whatever `ACC` held; `SCK` ends high. In a block whose strap is
Burst it is refused (R106, assumption log 12). -/
def Obligations.BitBangTransferShiftsIn32Samples : Prop :=
  ∀ s : State,
    (s.mode = .bitBang → ∃ v, SamplesAre s v ∧
      exec .read32BitBang s = .next
        { s with sck := 1, acc := v, bitcnt := s.bitcnt + 32, sdi := s.sdi.drop 32, samples := s.samples + 32,
                 ph := .idle, active := .none, res := .rawSample v, done := true }) ∧
    (s.mode = .burst → exec .read32BitBang s = .refused .strapSelectsOther)

/-- `TRANSFER_BURST` (R128): four bytes concatenated, whatever `ACC` held; the block drives no clock. In a block whose
strap is BitBang it is refused (R106, assumption log 12). -/
def Obligations.BurstTransferConcatenatesFourBytes : Prop :=
  ∀ s : State,
    (s.mode = .burst → ∃ v, SamplesAre s v ∧
      exec .read32Burst s = .next
        { s with acc := v, bitcnt := s.bitcnt + 32, sdi := s.sdi.drop 32, samples := s.samples + 32,
                 ph := .idle, active := .none, res := .rawSample v, done := true }) ∧
    (s.mode = .bitBang → exec .read32Burst s = .refused .strapSelectsOther)

/-- Bit order (R51): the first sample is bit 31, the last bit 0, in either mode. -/
def Obligations.RawSampleIsMostSignificantFirst : Prop :=
  ∀ s : State, ∃ v t, exec .read32 s = .next t ∧ t.res = .rawSample v ∧
    ∀ k < 32, v.getLsbD (31 - k) = (levelAt s k == 1)

/-- Mode equivalence (R129): given the same samples, both transfers and `READ32` in both modes return the same
RawSample `v` with `v[31-k] = s_k`, and the result, the flags and the internal field of `READ_EXT_C` do not depend on
the mode, nor does any other operation of the FrameDecoder or the host. -/
def Obligations.BothModesReadTheSameFrame : Prop :=
  (∀ s : State, ∃ v a b c d,
    exec .read32BitBang { s with mode := .bitBang } = .next a ∧
    exec .read32Burst { s with mode := .burst } = .next b ∧
    exec .read32 { s with mode := .bitBang } = .next c ∧ exec .read32 { s with mode := .burst } = .next d ∧
    a.res = .rawSample v ∧ b.res = .rawSample v ∧ c.res = .rawSample v ∧ d.res = .rawSample v ∧ SamplesAre s v) ∧
  (∀ (s : State) (i : Instr), i ≠ .read32BitBang → i ≠ .read32Burst → ∃ a b,
    exec i { s with mode := .bitBang } = .next a ∧ exec i { s with mode := .burst } = .next b ∧
    a.res = b.res ∧ a.errflags = b.errflags ∧ a.intraw = b.intraw ∧ a.mask = b.mask ∧ a.begun = b.begun)

/-! ## The sequencer -/

/-- The transitions of a busy block (R134; the table is the spec's decision D4). -/
def Obligations.SequencerTransitions : Prop :=
  ∀ s : State, s.rst = false → s.request = none → s.ph ≠ .idle → ∃ t, step s = .next t ∧
    (s.ph = .initPins → t.ph = if s.active = .readExtC ∨ s.active = .read32 then .select else .idle) ∧
    (s.ph = .select → t.ph = .settle) ∧
    (s.ph = .settle → t.ph = if s.mode = .bitBang then .bitLow else .bitSample) ∧
    (s.ph = .bitLow → t.ph = .bitSample) ∧
    (s.ph = .bitSample → s.mode = .bitBang → t.ph = .bitHigh) ∧
    (s.ph = .bitSample → s.mode = .burst → s.bitcnt < 32 → t.ph = .bitSample) ∧
    (s.ph = .bitSample → s.mode = .burst → s.bitcnt = 32 → t.ph = .deselect) ∧
    (s.ph = .bitHigh → s.bitcnt < 32 → t.ph = .bitLow) ∧
    (s.ph = .bitHigh → s.bitcnt = 32 → t.ph = .deselect) ∧
    (s.ph = .deselect → t.ph = .idle ∧ t.done = true)

/-- The rows of R134 that leave or keep `IDLE` (the table is the spec's decision D4), in a block watched phase by phase
(the model's choice, assumption log 15), whether the operation stands on the port or comes from the host's list:
`INITIALIZE`, `INIT_PINS` and a read with `BEGUN = 0` (R122, R234) go to `INIT_PINS`, a read with `BEGUN = 1` goes to
`SELECT`, each with its pins and nothing else; the other host operations stay in `IDLE`. -/
def Obligations.SequencerLeavesIdle : Prop :=
  ∀ (s u : State) (c : Command) (i : Instr),
    s.rst = false → s.ph = .idle → s.fine = true → decodeCommand c = .ok i →
    (s.request = some c ∧ u = { s with request := none }) ∨
      (s.request = none ∧ ∃ cs, s.queue = c :: cs ∧ u = { s with queue := cs }) →
    (∀ a : Activity,
      (i = .initialise ∧ a = .initialise) ∨ (i = .initPins ∧ a = .initPins) ∨
        ((i = .readExtC ∧ a = .readExtC ∨ i = .read32 ∧ a = .read32) ∧ s.begun = false) →
      step s = .next
        { u with ph := .initPins, active := a, begun := true, csN := 1,
                 sck := if s.mode = .bitBang then 0 else s.sck, res := .none, done := false }) ∧
    (∀ a : Activity,
      (i = .readExtC ∧ a = .readExtC ∨ i = .read32 ∧ a = .read32) → s.begun = true →
      step s = .next { u with ph := .select, active := a, csN := 0, res := .none, done := false }) ∧
    (i = .readIntC ∨ i = .getErr ∨ (∃ bits, i = .setMask bits) →
      ∃ t, step s = .next t ∧ t.ph = .idle ∧ t.done = true)

/-- The first read (R122, R234), watched phase by phase (assumption log 15): one event more than any later read, which
sets the pins and `BEGUN`; from there on it is, step for step, the read of a block whose pins are at those levels. -/
def Obligations.FirstReadInsertsInitPins : Prop :=
  ∀ (s : State) (c : Command) (i : Instr) (n : Nat),
    s.rst = false → s.ph = .idle → s.fine = true → s.begun = false →
    s.request = some c ∨ (s.request = none ∧ ∃ cs, s.queue = c :: cs) →
    decodeCommand c = .ok i → i = .readExtC ∨ i = .read32 →
      (∃ t, runSteps 1 s = .next t ∧ t.ph = .initPins ∧ t.csN = 1 ∧ t.begun = true ∧
        (s.mode = .bitBang → t.sck = 0)) ∧
      runSteps (n + 2) s =
        runSteps (n + 1)
          { s with begun := true, csN := 1, sck := if s.mode = .bitBang then 0 else s.sck }

/-- The pin events of one BitBang read with `BEGUN = 1` (R135), phase by phase, and the accumulator after each sample:
the bits sampled so far, most recent in bit 0 (R21). Event 99 is the de-selection; one more transition ends the
operation. -/
def Obligations.BitBangReadPinEvents : Prop :=
  ∀ (s : State) (c : Command),
    s.rst = false → s.ph = .idle → s.fine = true → s.mode = .bitBang → s.begun = true →
    s.request = some c → decodeCommand c = .ok .readExtC →
    (∃ t, runSteps 1 s = .next t ∧ t.ph = .select ∧ t.csN = 0 ∧ t.sck = s.sck) ∧
    (∃ t, runSteps 2 s = .next t ∧ t.ph = .settle ∧ t.csN = 0 ∧ t.sck = s.sck ∧ t.acc = 0 ∧
      t.bitcnt = 0) ∧
    (∀ k < 32,
      (∃ t, runSteps (3 + 3 * k) s = .next t ∧ t.ph = .bitLow ∧ t.csN = 0 ∧ t.sck = 0) ∧
      (∃ t, runSteps (4 + 3 * k) s = .next t ∧ t.ph = .bitSample ∧ t.csN = 0 ∧ t.sck = 0 ∧
        t.bitcnt.toNat = k + 1 ∧
        (∀ j ≤ k, t.acc.getLsbD j = (levelAt s (k - j) == 1)) ∧ (∀ j, k < j → t.acc.getLsbD j = false)) ∧
      (∃ t, runSteps (5 + 3 * k) s = .next t ∧ t.ph = .bitHigh ∧ t.csN = 0 ∧ t.sck = 1)) ∧
    (∃ t, runSteps 99 s = .next t ∧ t.ph = .deselect ∧ t.csN = 1 ∧ t.sck = 1 ∧ SamplesAre s t.acc) ∧
    (∃ t, runSteps 100 s = .next t ∧ t.ph = .idle ∧ t.csN = 1 ∧ t.sck = 1 ∧ t.done = true)

/-- An operation run phase by phase ends, within 101 steps, exactly as its meaning says (R134 against R124, R126,
R181, R182). -/
def Obligations.PhaseByPhaseRunEqualsTheOperation : Prop :=
  ∀ (s : State) (c : Command) (i : Instr),
    s.rst = false → s.ph = .idle → s.fine = true → s.request = some c → decodeCommand c = .ok i →
    i = .initialise ∨ i = .readExtC ∨ i = .read32 ∨ i = .initPins →
      ∃ n ≤ 101, runSteps n s = exec i { s with request := none }

/-- A busy block reaches `IDLE` with the select line high in at most 100 more steps, whatever the line shows
(R130). -/
def Obligations.BusyBlockReachesIdle : Prop :=
  ∀ s : State, Inv s → s.ph ≠ .idle → s.rst = false → s.request = none →
    ∃ n ≤ 100, ∃ t, runSteps n s = .next t ∧ t.ph = .idle ∧ t.csN = 1 ∧ t.done = true

/-- "No transition depends on `SDI`" (R134): other levels on the line change neither whether a step is made nor any
pin, phase or count after it. -/
def Obligations.SequencingIgnoresTheDataLine : Prop :=
  ∀ (s : State) (levels : List Level),
    (∃ t u, step s = .next t ∧ step { s with sdi := levels } = .next u ∧ SameControl t u) ∨
    (∃ r, step s = .refused r ∧ step { s with sdi := levels } = .refused r)

/-- A BitBang read waits at least `T_SETTLE + 64 * T_HOLD`, whatever it reads (R242). -/
def Obligations.BitBangReadLeastTime : Prop :=
  ∀ s : State, s.ph = .select → s.mode = .bitBang →
    leastTime 99 s = Config.tSettle + 64 * Config.tHold

/-! ## The FrameDecoder -/

/-- `CLASSIFY` (R150). -/
def Obligations.ClassifyComparesTheHalves : Prop :=
  ∀ (v : Word) (s : State),
    exec (.classify v) s = .next
      { s with res := .variant (if v.extractLsb' 16 16 = v.extractLsb' 0 16 then .sixteenBit else .thirtyTwoBit),
               done := true }

/-- `DECODE16` (R151); OpenCircuit at bit 0 is the spec's decision D8. That the effect is the same on a frame with
different halves, which the operand line of R151 shuts out, is DEDUCED (assumption log 28). -/
def Obligations.Decode16Effect : Prop :=
  ∀ (v : Word) (s : State),
    exec (.decode16 v) s = .next
      { s with errflags := if v.getLsbD 2 then 1 else 0, intraw := 0,
               res := .external (if v.getLsbD 2 = true ∧ s.mask.getLsbD 0 = true then .nan
                                 else .quarters ((v.extractLsb' 0 16 >>> 3).setWidth 32)),
               done := true }

/-- `DECODE32` (R152). That the effect is the same on a frame with equal halves, which the operand line of R152 shuts
out, is DEDUCED (assumption log 28). -/
def Obligations.Decode32Effect : Prop :=
  ∀ (v : Word) (s : State),
    exec (.decode32 v) s = .next
      { s with errflags := v.extractLsb' 0 3, intraw := v.extractLsb' 4 12,
               res := .external (if v.extractLsb' 0 3 &&& s.mask ≠ 0 then .nan
                                 else .quarters ((v.extractLsb' 18 14).signExtend 32)),
               done := true }

/-- `DECODE` (R153) is the combinational view of R169: classification, flags, internal field, comparator and count
from the same `v` and `MASK`. -/
def Obligations.DecodeIsTheCombinationalView : Prop :=
  ∀ (v : Word) (s : State),
    let is16 := v.extractLsb' 16 16 = v.extractLsb' 0 16
    let flt : Flags := if is16 then (v.extractLsb' 2 1).setWidth 3 else v.extractLsb' 0 3
    exec (.decode v) s = .next
      { s with errflags := flt, intraw := if is16 then 0 else v.extractLsb' 4 12,
               res := .external (if flt &&& s.mask ≠ 0 then .nan
                                 else .quarters (if is16 then (v.extractLsb' 3 13).setWidth 32
                                                 else (v.extractLsb' 18 14).signExtend 32)),
               done := true }

/-- The flags are independent (R206): the result is the sentinel exactly when some flag of the frame has its mask bit
set, all flags of the frame are recorded, any subset can occur, and `GET_ERR` still tells them. -/
def Obligations.FlagsAreIndependent : Prop :=
  (∀ (v : Word) (s : State), ∃ t u, exec (.decode v) s = .next t ∧
    (t.res = .external .nan ↔ ∃ k < 3, t.errflags.getLsbD k = true ∧ s.mask.getLsbD k = true) ∧
    (v.extractLsb' 16 16 ≠ v.extractLsb' 0 16 → t.errflags = v.extractLsb' 0 3) ∧
    exec .getErr t = .next u ∧ u.res = .flags t.errflags) ∧
  (∀ f : Flags, ∃ v : Word, ∀ s : State, ∃ t, exec (.decode v) s = .next t ∧ t.errflags = f)

/-- Masking suppresses the result only (R157): the flags and the internal field a decode writes are the same under
every mask; with mask 0 no result is the sentinel (R154). -/
def Obligations.MaskingTouchesTheResultOnly : Prop :=
  ∀ (v : Word) (s : State) (m : Flags), ∃ t u,
    exec (.decode v) s = .next t ∧ exec (.decode v) { s with mask := m } = .next u ∧
    t.errflags = u.errflags ∧ t.intraw = u.intraw ∧ (m = 0 → ∃ q, u.res = .external (.quarters q))

/-- `INT_C` (R156): two's complement of the 12-bit field, in units of 0.0625 degrees, never the sentinel. -/
def Obligations.InternalConversion : Prop :=
  ∀ (r : Internal) (s : State), ∃ q : Word,
    exec (.intC r) s = .next { s with res := .internal q, done := true } ∧
    internalCelsius q = (r.toInt : ℚ) / 16 ∧
    q = ((if r.getLsbD 11 then r.setWidth 16 ||| 0xF800#16 else r.setWidth 16) : Half).signExtend 32

/-- The fields are logical shifts of the unsigned words (R162). -/
def Obligations.FieldsAreLogicalShifts : Prop :=
  ∀ v : Word, ext14 v = (v >>> 18).setWidth 14 ∧ (v >>> 18).toNat < 2 ^ 14 ∧
    (cnt13 (lowHalf v)).setWidth 16 = lowHalf v >>> 3 ∧
    (int12 v).setWidth 32 = (v >>> 4) &&& 0xFFF#32

/-- The external sign-extender (R155): the OR form is sign extension, `f` below 0x2000 and `f - 16384` from there. -/
def Obligations.ExternalSignExtender : Prop :=
  ∀ f : BitVec 14, extendExternal f = f.signExtend 32 ∧
    (extendExternal f).toInt = if f.toNat < 0x2000 then (f.toNat : Int) else f.toNat - 16384

/-- External result ranges, all attained (R164): on the ThirtyTwoBit path -2048.0 to 2047.75 in steps of 0.25, on the
SixteenBit path 0.0 to 2047.75, never negative. The frames that attain them have no flag, so every mask lets them
through. -/
def Obligations.ExternalRangeIsAttained : Prop :=
  (∀ (v : Word) (s t : State) (r : Reading), exec (.decode v) s = .next t → t.res = .external r →
    ∀ x, r.celsius = some x →
      -2048 ≤ x ∧ x ≤ 2047.75 ∧ (v.extractLsb' 16 16 = v.extractLsb' 0 16 → 0 ≤ x)) ∧
  (∀ n : Int, -8192 ≤ n → n ≤ 8191 → ∃ v : Word, v.extractLsb' 16 16 ≠ v.extractLsb' 0 16 ∧ ∀ s : State, ∃ t r,
    exec (.decode v) s = .next t ∧ t.res = .external r ∧ r.celsius = some (n / 4 : ℚ)) ∧
  (∀ n : Int, 0 ≤ n → n ≤ 8191 → ∃ v : Word, v.extractLsb' 16 16 = v.extractLsb' 0 16 ∧ ∀ s : State, ∃ t r,
    exec (.decode v) s = .next t ∧ t.res = .external r ∧ r.celsius = some (n / 4 : ℚ))

/-- Internal result range, all attained (R164): `READ_INT_C` returns -128.0 to 127.9375 in steps of 0.0625, each of the
4096 values after the decode of some frame, whatever the mask. -/
def Obligations.InternalRangeIsAttained : Prop :=
  (∀ s : State, ∃ t q, exec .readIntC s = .next t ∧ t.res = .internal q ∧
    -128 ≤ internalCelsius q ∧ internalCelsius q ≤ 127.9375) ∧
  (∀ n : Int, -2048 ≤ n → n ≤ 2047 → ∃ v : Word, ∀ s : State, ∃ t u q,
    exec (.decode v) s = .next t ∧ exec .readIntC t = .next u ∧ u.res = .internal q ∧
    internalCelsius q = (n / 16 : ℚ))

/-- Results are exact as binary32 (R166, decision D10): the pattern of a count of less than 24 bits denotes exactly
the count divided by the power of two. What a pattern denotes is PRESUMED from IEEE 754 (assumption log 27). -/
def Obligations.FloatResultsAreExact : Prop :=
  ∀ (q : Int) (k : Nat), q.natAbs < 2 ^ 24 → k ≤ 126 → binary32Value (binary32 q k) = some (q / 2 ^ k : ℚ)

/-- Every temperature the block returns is exact as a float (R166, decision D10): the binary32 pattern of an external
or internal result denotes the very number the counts denote, and a sentinel's denotes none, under every draw of its
pattern (assumption log 20). What a pattern denotes is PRESUMED from IEEE 754 (assumption log 27). -/
def Obligations.ReturnedTemperaturesAreExactFloats : Prop :=
  (∀ (v : Word) (s : State), ∃ t r, exec (.decode v) s = .next t ∧ t.res = .external r ∧
    ∀ draw, binary32Value (r.float draw) = r.celsius) ∧
  (∀ s : State, ∃ t q, exec .readIntC s = .next t ∧ t.res = .internal q ∧
    binary32Value (internalFloat q) = some (internalCelsius q) ∧ -128 ≤ internalCelsius q ∧
    internalCelsius q ≤ 127.9375)

/-- The sentinel's pattern is a binary32 NaN, whatever its sign and payload (R167), under every draw (assumption
log 20): exponent all ones, fraction not zero, so it denotes no number. The places of the fields and what a pattern
denotes are PRESUMED from IEEE 754 (assumption log 27). -/
def Obligations.SentinelPatternIsNaN : Prop :=
  ∀ draw : Nat, (Reading.nan.float draw).extractLsb' 23 8 = 0xFF#8 ∧
    (Reading.nan.float draw).extractLsb' 0 23 ≠ 0#23 ∧ binary32Value (Reading.nan.float draw) = none

/-! ## Host operations -/

/-- `READ_EXT_C` (R182) from end to end: one transfer, then the decode of its frame, and nothing else. -/
def Obligations.ReadExternalFromPinsToResult : Prop :=
  ∀ s : State, ∃ v, SamplesAre s v ∧
    let is16 := v.extractLsb' 16 16 = v.extractLsb' 0 16
    let flt : Flags := if is16 then (v.extractLsb' 2 1).setWidth 3 else v.extractLsb' 0 3
    exec .readExtC s = .next
      { s with begun := true, csN := 1, sck := if s.mode = .bitBang then 1 else s.sck,
               acc := v, bitcnt := 32, sdi := s.sdi.drop 32, samples := s.samples + 32,
               errflags := flt, intraw := if is16 then 0 else v.extractLsb' 4 12,
               ph := .idle, active := .none,
               res := .external (if flt &&& s.mask ≠ 0 then .nan
                                 else .quarters (if is16 then (v.extractLsb' 3 13).setWidth 32
                                                 else (v.extractLsb' 18 14).signExtend 32)),
               done := true }

/-- The masked-error outcome (R203, R207): `READ_EXT_C` returns the sentinel exactly when the flags of the frame it just
read, ANDed with `MASK`, are not zero; the flags and the internal field are those of that frame; the operation completes
with `CS_N = 1` and `PH = IDLE`, mode and mask unchanged; under any other mask it updates state identically; and
`READ_INT_C` and `GET_ERR` return no sentinel. -/
def Obligations.SentinelIsTheOnlyErrorResult : Prop :=
  ∀ (s : State) (m : Flags), ∃ v t u r e, SamplesAre s v ∧
    exec .readExtC s = .next t ∧ exec .readExtC { s with mask := m } = .next u ∧
    exec .readIntC s = .next r ∧ exec .getErr s = .next e ∧
    (t.res = .external .nan ↔ t.errflags &&& s.mask ≠ 0) ∧
    (v.extractLsb' 16 16 ≠ v.extractLsb' 0 16 →
      t.errflags = v.extractLsb' 0 3 ∧ t.intraw = v.extractLsb' 4 12) ∧
    (v.extractLsb' 16 16 = v.extractLsb' 0 16 → (t.errflags ≠ 0 ↔ v.getLsbD 2 = true) ∧ t.intraw = 0) ∧
    t.csN = 1 ∧ t.ph = .idle ∧ t.mode = s.mode ∧ t.mask = s.mask ∧ t.done = true ∧
    { u with mask := s.mask, res := t.res } = t ∧
    r.res ≠ .external .nan ∧ e.res ≠ .external .nan

/-- Every read attempt is independent (R208): what an earlier read, masked or not, left behind changes nothing, a
result is always returned, and for a frame without a masked flag it is a number. -/
def Obligations.ReadAttemptsAreIndependent : Prop :=
  ∀ (s : State) (f : Flags) (r : Internal) (a : Word) (n : BitVec 6) (o : Result),
    exec .readExtC { s with errflags := f, intraw := r, acc := a, bitcnt := n, res := o } = exec .readExtC s ∧
    ∃ t x, exec .readExtC s = .next t ∧ t.res = .external x ∧
      (t.errflags &&& s.mask = 0 → ∃ q, x = .quarters q)

/-- `READ_INT_C` (R183; without a transfer by the spec's decision D9): the sign-extended internal field, no state
written. -/
def Obligations.ReadInternalConvertsTheStoredField : Prop :=
  ∀ s : State, exec .readIntC s = .next { s with res := .internal (s.intraw.signExtend 32), done := true }

/-- `GET_ERR` (R184): the flags, not cleared and not masked; `SET_MASK` does not change what it returns; right after
RESET it returns the open parameter. -/
def Obligations.GetErrReturnsTheFlags : Prop :=
  (∀ s : State, exec .getErr s = .next { s with res := .flags s.errflags, done := true }) ∧
  (∀ (s : State) (bits : Byte), ∃ t u, exec (.setMask bits) s = .next t ∧ exec .getErr t = .next u ∧
    u.res = .flags s.errflags) ∧
  (∃ t, exec .getErr State.reset = .next t ∧ t.res = .flags (Config.resetErrFlags 0))

/-- The result ports (R34, R169; the spec's decisions D1 and D11): `RES_NAN` is the comparator's output, `RES_Q` the
count, not exposed beside the sentinel; `READ_INT_C` never shows the sentinel and
converts the stored field, without a transfer, by the spec's decision D9 (assumption log 19); `RES_FLAGS` is what
`GET_ERR` reads. -/
def Obligations.ResultPortsCarryTheResult : Prop :=
  ∀ (v : Word) (s : State), ∃ t u w,
    exec (.decode v) s = .next t ∧ exec .readIntC s = .next u ∧ exec .getErr s = .next w ∧
    (t.errflags &&& s.mask ≠ 0 → resNan t = some 1 ∧ resQ t = none) ∧
    (t.errflags &&& s.mask = 0 → resNan t = some 0 ∧
      resQ t = some (if v.extractLsb' 16 16 = v.extractLsb' 0 16 then (v.extractLsb' 3 13).setWidth 32
                     else (v.extractLsb' 18 14).signExtend 32)) ∧
    resNan u = some 0 ∧ resQ u = some (s.intraw.signExtend 32) ∧
    resFlags w = some s.errflags ∧ resQ w = none

/-- After any read, masked or not, `GET_ERR` and `READ_INT_C` tell that read's frame (R184, R61, R207). That
`READ_INT_C` makes no transfer of its own is the spec's decision D9 (assumption log 19), OpenCircuit at bit 0 its
decision D8 (assumption log 18). -/
def Obligations.AccessorsReflectTheLatestRead : Prop :=
  ∀ s : State, ∃ v t e r, SamplesAre s v ∧ exec .readExtC s = .next t ∧
    exec .getErr t = .next e ∧ exec .readIntC t = .next r ∧
    (v.extractLsb' 16 16 ≠ v.extractLsb' 0 16 →
      e.res = .flags (v.extractLsb' 0 3) ∧ r.res = .internal ((v.extractLsb' 4 12).signExtend 32)) ∧
    (v.extractLsb' 16 16 = v.extractLsb' 0 16 →
      e.res = .flags ((v.extractLsb' 2 1).setWidth 3) ∧ r.res = .internal 0)

/-- `SET_MASK` (R185): `MASK <- bits[2:0]`, nothing else, and higher bits are discarded. -/
def Obligations.SetMaskKeepsTheLowBits : Prop :=
  ∀ (s : State) (bits : Byte),
    exec (.setMask bits) s = .next { s with mask := (bits &&& 0b111).setWidth 3, res := .none, done := true } ∧
    exec (.setMask bits) s = exec (.setMask (bits &&& 0b111)) s

/-- A mask set before a read is the one that read uses (R64): nothing need be done in between. -/
def Obligations.MaskIsVisibleToTheNextRead : Prop :=
  ∀ (s : State) (bits : Byte), ∃ t u, exec (.setMask bits) s = .next t ∧ exec .readExtC t = .next u ∧
    (u.res = .external .nan ↔ u.errflags &&& bits.setWidth 3 ≠ 0)

/-- Every host operation completes (R180), from every state of an idle block and in any order: the step that runs it
ends in a state, idle again. -/
def Obligations.EveryHostOperationCompletes : Prop :=
  ∀ (s : State) (c : Command) (i : Instr),
    s.rst = false → s.ph = .idle → s.fine = false → s.request = some c → decodeCommand c = .ok i →
    i.isHostOp = true →
      ∃ t, step s = .next t ∧ t.ph = .idle ∧ t.done = true ∧ t.request = none

/-- Who writes what (R38): each element of the state changes only under the operations whose row has a W; `PH`, and with
it the model's `active` (assumption log 14), only under those that use the sequencer; `SCK` in BitBang mode only. That
`READ_INT_C` writes none of them is the spec's decision D9 (assumption log 19). -/
def Obligations.AccessMatrix : Prop :=
  ∀ (i : Instr) (s t : State), exec i s = .next t →
    ((∀ b, i ≠ .setMask b) → t.mask = s.mask) ∧
    (i ≠ .readExtC → (∀ v, i ≠ .decode v) → (∀ v, i ≠ .decode16 v) → (∀ v, i ≠ .decode32 v) →
      t.errflags = s.errflags ∧ t.intraw = s.intraw) ∧
    (i ≠ .initialise → i ≠ .initPins → i ≠ .readExtC → i ≠ .read32 → t.begun = s.begun ∧ t.csN = s.csN) ∧
    (i ≠ .initialise → i ≠ .initPins → i ≠ .readExtC → i ≠ .read32 → i ≠ .read32BitBang → t.sck = s.sck) ∧
    (s.mode = .burst → t.sck = s.sck) ∧
    (i ≠ .initialise → i ≠ .initPins → i ≠ .readExtC → i ≠ .read32 → i ≠ .read32BitBang → i ≠ .read32Burst →
      t.ph = s.ph ∧ t.active = s.active) ∧
    (i ≠ .readExtC → i ≠ .read32 → i ≠ .read32BitBang → i ≠ .read32Burst →
      t.acc = s.acc ∧ t.bitcnt = s.bitcnt ∧ t.sdi = s.sdi ∧ t.samples = s.samples) ∧
    t.mode = s.mode ∧ t.rst = s.rst ∧ t.request = s.request ∧ t.queue = s.queue ∧ t.resets = s.resets ∧
    t.fine = s.fine ∧ t.done = true

/-! ## Whole-machine rules -/

/-- "No operation clears it; only reset does" (R23, decision D18), and the strap never changes (R8, R106). -/
def Obligations.BegunAndStrapPersist : Prop :=
  ∀ s t : State, step s = .next t →
    t.mode = s.mode ∧ (s.rst = false → s.begun = true → t.begun = true)

/-- The invariant of the sequencer and its pins holds after reset, in a block of either mode and after every recurrence,
State.reset among them. -/
def Obligations.ResetMeetsTheInvariant : Prop :=
  (∀ (m : Mode) (n : Nat), Inv (State.construct m n)) ∧ Inv State.reset

/-- Every step keeps the invariant of the sequencer and its pins. -/
def Obligations.EveryStepKeepsTheInvariant : Prop :=
  ∀ s t : State, Inv s → step s = .next t → Inv t

/-- While the host does its duties no step is refused, and its duties stay done (R180, R200, R239). -/
def Obligations.DutifulHostIsNeverRefused : Prop :=
  ∀ s : State, HostDuties s → ∃ t, step s = .next t ∧ HostDuties t

/-- So runs of every length are safe. -/
def Obligations.DutifulHostRunsSafely : Prop :=
  ∀ s : State, HostDuties s → SafeRun s
end

