-- ==== Sys2Proof/Laws/State.lean ====
section
/-! SUPPORT. What each named update of the state does to each field: one rewrite rule per field per update. -/

namespace Sys2Proof.Machine

@[simp] theorem skipLevels_fields (n : Nat) (s : State) :
    (skipLevels n s).acc = s.acc ∧ (skipLevels n s).bitcnt = s.bitcnt ∧ (skipLevels n s).ph = s.ph ∧
    (skipLevels n s).begun = s.begun ∧ (skipLevels n s).mask = s.mask ∧ (skipLevels n s).errflags = s.errflags ∧
    (skipLevels n s).intraw = s.intraw ∧ (skipLevels n s).csN = s.csN ∧ (skipLevels n s).sck = s.sck ∧
    (skipLevels n s).mode = s.mode ∧ (skipLevels n s).rst = s.rst ∧ (skipLevels n s).request = s.request ∧
    (skipLevels n s).done = s.done ∧ (skipLevels n s).res = s.res ∧ (skipLevels n s).sdi = s.sdi.drop n ∧
    (skipLevels n s).active = s.active ∧ (skipLevels n s).queue = s.queue ∧
    (skipLevels n s).samples = s.samples + n ∧ (skipLevels n s).resets = s.resets ∧
    (skipLevels n s).fine = s.fine := by
  and_intros <;> rfl

@[simp] theorem complete_fields (r : Result) (s : State) :
    (complete r s).acc = s.acc ∧ (complete r s).bitcnt = s.bitcnt ∧ (complete r s).ph = s.ph ∧
    (complete r s).begun = s.begun ∧ (complete r s).mask = s.mask ∧ (complete r s).errflags = s.errflags ∧
    (complete r s).intraw = s.intraw ∧ (complete r s).csN = s.csN ∧ (complete r s).sck = s.sck ∧
    (complete r s).mode = s.mode ∧ (complete r s).rst = s.rst ∧ (complete r s).request = s.request ∧
    (complete r s).done = true ∧ (complete r s).res = r ∧ (complete r s).sdi = s.sdi ∧
    (complete r s).active = s.active ∧ (complete r s).queue = s.queue ∧ (complete r s).samples = s.samples ∧
    (complete r s).resets = s.resets ∧ (complete r s).fine = s.fine := by
  and_intros <;> rfl

@[simp] theorem completeSequenced_fields (r : Result) (s : State) :
    (completeSequenced r s).acc = s.acc ∧ (completeSequenced r s).bitcnt = s.bitcnt ∧
    (completeSequenced r s).ph = .idle ∧ (completeSequenced r s).begun = s.begun ∧
    (completeSequenced r s).mask = s.mask ∧ (completeSequenced r s).errflags = s.errflags ∧
    (completeSequenced r s).intraw = s.intraw ∧ (completeSequenced r s).csN = s.csN ∧
    (completeSequenced r s).sck = s.sck ∧ (completeSequenced r s).mode = s.mode ∧
    (completeSequenced r s).rst = s.rst ∧ (completeSequenced r s).request = s.request ∧
    (completeSequenced r s).done = true ∧ (completeSequenced r s).res = r ∧ (completeSequenced r s).sdi = s.sdi ∧
    (completeSequenced r s).active = .none ∧ (completeSequenced r s).queue = s.queue ∧
    (completeSequenced r s).samples = s.samples ∧ (completeSequenced r s).resets = s.resets ∧
    (completeSequenced r s).fine = s.fine := by
  and_intros <;> rfl

@[simp] theorem waitIdle_fields (s : State) :
    (waitIdle s).acc = s.acc ∧ (waitIdle s).bitcnt = s.bitcnt ∧ (waitIdle s).ph = s.ph ∧
    (waitIdle s).begun = s.begun ∧ (waitIdle s).mask = s.mask ∧ (waitIdle s).errflags = s.errflags ∧
    (waitIdle s).intraw = s.intraw ∧ (waitIdle s).csN = s.csN ∧ (waitIdle s).sck = s.sck ∧
    (waitIdle s).mode = s.mode ∧ (waitIdle s).rst = s.rst ∧ (waitIdle s).request = s.request ∧
    (waitIdle s).done = false ∧ (waitIdle s).res = .none ∧ (waitIdle s).sdi = s.sdi ∧
    (waitIdle s).active = s.active ∧ (waitIdle s).queue = s.queue ∧ (waitIdle s).samples = s.samples ∧
    (waitIdle s).resets = s.resets ∧ (waitIdle s).fine = s.fine := by
  and_intros <;> rfl

@[simp] theorem applyReset_fields (s : State) :
    (applyReset s).acc = Config.resetAcc (s.resets + 1) ∧
    (applyReset s).bitcnt = Config.resetBitcnt (s.resets + 1) ∧ (applyReset s).ph = .idle ∧
    (applyReset s).begun = false ∧ (applyReset s).mask = 0b111 ∧
    (applyReset s).errflags = Config.resetErrFlags (s.resets + 1) ∧
    (applyReset s).intraw = Config.resetIntRaw (s.resets + 1) ∧
    (applyReset s).csN = Config.resetCsN (s.resets + 1) ∧ (applyReset s).sck = Config.resetSck (s.resets + 1) ∧
    (applyReset s).mode = s.mode ∧ (applyReset s).rst = false ∧ (applyReset s).request = s.request ∧
    (applyReset s).done = false ∧ (applyReset s).res = .none ∧ (applyReset s).sdi = s.sdi ∧
    (applyReset s).active = .none ∧ (applyReset s).queue = s.queue ∧ (applyReset s).samples = s.samples ∧
    (applyReset s).resets = s.resets + 1 ∧ (applyReset s).fine = s.fine := by
  and_intros <;> rfl

@[simp] theorem begin_fields (a : Activity) (s : State) :
    (begin a s).acc = s.acc ∧ (begin a s).bitcnt = s.bitcnt ∧ (begin a s).ph = s.ph ∧ (begin a s).begun = s.begun ∧
    (begin a s).mask = s.mask ∧ (begin a s).errflags = s.errflags ∧ (begin a s).intraw = s.intraw ∧
    (begin a s).csN = s.csN ∧ (begin a s).sck = s.sck ∧ (begin a s).mode = s.mode ∧ (begin a s).rst = s.rst ∧
    (begin a s).request = s.request ∧ (begin a s).done = false ∧ (begin a s).res = .none ∧
    (begin a s).sdi = s.sdi ∧ (begin a s).active = a ∧ (begin a s).queue = s.queue ∧
    (begin a s).samples = s.samples ∧ (begin a s).resets = s.resets ∧ (begin a s).fine = s.fine := by
  and_intros <;> rfl

@[simp] theorem enterInitPins_fields (s : State) :
    (enterInitPins s).acc = s.acc ∧ (enterInitPins s).bitcnt = s.bitcnt ∧ (enterInitPins s).ph = .initPins ∧
    (enterInitPins s).begun = true ∧ (enterInitPins s).mask = s.mask ∧ (enterInitPins s).errflags = s.errflags ∧
    (enterInitPins s).intraw = s.intraw ∧ (enterInitPins s).csN = 1 ∧
    (enterInitPins s).sck = (if s.mode = .bitBang then 0 else s.sck) ∧ (enterInitPins s).mode = s.mode ∧
    (enterInitPins s).rst = s.rst ∧ (enterInitPins s).request = s.request ∧ (enterInitPins s).done = s.done ∧
    (enterInitPins s).res = s.res ∧ (enterInitPins s).sdi = s.sdi ∧ (enterInitPins s).active = s.active ∧
    (enterInitPins s).queue = s.queue ∧ (enterInitPins s).samples = s.samples ∧
    (enterInitPins s).resets = s.resets ∧ (enterInitPins s).fine = s.fine := by
  simp only [enterInitPins]; cases s.mode <;> simp

@[simp] theorem enterSelect_fields (s : State) :
    (enterSelect s).acc = s.acc ∧ (enterSelect s).bitcnt = s.bitcnt ∧ (enterSelect s).ph = .select ∧
    (enterSelect s).begun = s.begun ∧ (enterSelect s).mask = s.mask ∧ (enterSelect s).errflags = s.errflags ∧
    (enterSelect s).intraw = s.intraw ∧ (enterSelect s).csN = 0 ∧ (enterSelect s).sck = s.sck ∧
    (enterSelect s).mode = s.mode ∧ (enterSelect s).rst = s.rst ∧ (enterSelect s).request = s.request ∧
    (enterSelect s).done = s.done ∧ (enterSelect s).res = s.res ∧ (enterSelect s).sdi = s.sdi ∧
    (enterSelect s).active = s.active ∧ (enterSelect s).queue = s.queue ∧ (enterSelect s).samples = s.samples ∧
    (enterSelect s).resets = s.resets ∧ (enterSelect s).fine = s.fine := by
  and_intros <;> rfl

@[simp] theorem enterSettle_fields (s : State) :
    (enterSettle s).acc = 0 ∧ (enterSettle s).bitcnt = 0 ∧ (enterSettle s).ph = .settle ∧
    (enterSettle s).begun = s.begun ∧ (enterSettle s).mask = s.mask ∧ (enterSettle s).errflags = s.errflags ∧
    (enterSettle s).intraw = s.intraw ∧ (enterSettle s).csN = s.csN ∧ (enterSettle s).sck = s.sck ∧
    (enterSettle s).mode = s.mode ∧ (enterSettle s).rst = s.rst ∧ (enterSettle s).request = s.request ∧
    (enterSettle s).done = s.done ∧ (enterSettle s).res = s.res ∧ (enterSettle s).sdi = s.sdi ∧
    (enterSettle s).active = s.active ∧ (enterSettle s).queue = s.queue ∧ (enterSettle s).samples = s.samples ∧
    (enterSettle s).resets = s.resets ∧ (enterSettle s).fine = s.fine := by
  and_intros <;> rfl

@[simp] theorem enterBitLow_fields (s : State) :
    (enterBitLow s).acc = s.acc ∧ (enterBitLow s).bitcnt = s.bitcnt ∧ (enterBitLow s).ph = .bitLow ∧
    (enterBitLow s).begun = s.begun ∧ (enterBitLow s).mask = s.mask ∧ (enterBitLow s).errflags = s.errflags ∧
    (enterBitLow s).intraw = s.intraw ∧ (enterBitLow s).csN = s.csN ∧ (enterBitLow s).sck = 0 ∧
    (enterBitLow s).mode = s.mode ∧ (enterBitLow s).rst = s.rst ∧ (enterBitLow s).request = s.request ∧
    (enterBitLow s).done = s.done ∧ (enterBitLow s).res = s.res ∧ (enterBitLow s).sdi = s.sdi ∧
    (enterBitLow s).active = s.active ∧ (enterBitLow s).queue = s.queue ∧ (enterBitLow s).samples = s.samples ∧
    (enterBitLow s).resets = s.resets ∧ (enterBitLow s).fine = s.fine := by
  and_intros <;> rfl

@[simp] theorem enterBitSample_fields (s : State) :
    (enterBitSample s).acc = ((s.acc <<< 1) ||| (levelAt s 0).setWidth 32) ∧
    (enterBitSample s).bitcnt = s.bitcnt + 1 ∧ (enterBitSample s).ph = .bitSample ∧
    (enterBitSample s).begun = s.begun ∧ (enterBitSample s).mask = s.mask ∧
    (enterBitSample s).errflags = s.errflags ∧ (enterBitSample s).intraw = s.intraw ∧
    (enterBitSample s).csN = s.csN ∧ (enterBitSample s).sck = s.sck ∧ (enterBitSample s).mode = s.mode ∧
    (enterBitSample s).rst = s.rst ∧ (enterBitSample s).request = s.request ∧ (enterBitSample s).done = s.done ∧
    (enterBitSample s).res = s.res ∧ (enterBitSample s).sdi = s.sdi.drop 1 ∧ (enterBitSample s).active = s.active ∧
    (enterBitSample s).queue = s.queue ∧ (enterBitSample s).samples = s.samples + 1 ∧
    (enterBitSample s).resets = s.resets ∧ (enterBitSample s).fine = s.fine := by
  and_intros <;> rfl

@[simp] theorem enterBurstByte_fields (s : State) :
    (enterBurstByte s).acc = (s.acc <<< 8) ||| (peripheralByte s).setWidth 32 ∧
    (enterBurstByte s).bitcnt = s.bitcnt + 8 ∧ (enterBurstByte s).ph = .bitSample ∧
    (enterBurstByte s).begun = s.begun ∧ (enterBurstByte s).mask = s.mask ∧
    (enterBurstByte s).errflags = s.errflags ∧ (enterBurstByte s).intraw = s.intraw ∧
    (enterBurstByte s).csN = s.csN ∧ (enterBurstByte s).sck = s.sck ∧ (enterBurstByte s).mode = s.mode ∧
    (enterBurstByte s).rst = s.rst ∧ (enterBurstByte s).request = s.request ∧ (enterBurstByte s).done = s.done ∧
    (enterBurstByte s).res = s.res ∧ (enterBurstByte s).sdi = s.sdi.drop 8 ∧ (enterBurstByte s).active = s.active ∧
    (enterBurstByte s).queue = s.queue ∧ (enterBurstByte s).samples = s.samples + 8 ∧
    (enterBurstByte s).resets = s.resets ∧ (enterBurstByte s).fine = s.fine := by
  and_intros <;> rfl

@[simp] theorem enterBitHigh_fields (s : State) :
    (enterBitHigh s).acc = s.acc ∧ (enterBitHigh s).bitcnt = s.bitcnt ∧ (enterBitHigh s).ph = .bitHigh ∧
    (enterBitHigh s).begun = s.begun ∧ (enterBitHigh s).mask = s.mask ∧ (enterBitHigh s).errflags = s.errflags ∧
    (enterBitHigh s).intraw = s.intraw ∧ (enterBitHigh s).csN = s.csN ∧ (enterBitHigh s).sck = 1 ∧
    (enterBitHigh s).mode = s.mode ∧ (enterBitHigh s).rst = s.rst ∧ (enterBitHigh s).request = s.request ∧
    (enterBitHigh s).done = s.done ∧ (enterBitHigh s).res = s.res ∧ (enterBitHigh s).sdi = s.sdi ∧
    (enterBitHigh s).active = s.active ∧ (enterBitHigh s).queue = s.queue ∧ (enterBitHigh s).samples = s.samples ∧
    (enterBitHigh s).resets = s.resets ∧ (enterBitHigh s).fine = s.fine := by
  and_intros <;> rfl

@[simp] theorem enterDeselect_fields (s : State) :
    (enterDeselect s).acc = s.acc ∧ (enterDeselect s).bitcnt = s.bitcnt ∧ (enterDeselect s).ph = .deselect ∧
    (enterDeselect s).begun = s.begun ∧ (enterDeselect s).mask = s.mask ∧ (enterDeselect s).errflags = s.errflags ∧
    (enterDeselect s).intraw = s.intraw ∧ (enterDeselect s).csN = 1 ∧ (enterDeselect s).sck = s.sck ∧
    (enterDeselect s).mode = s.mode ∧ (enterDeselect s).rst = s.rst ∧ (enterDeselect s).request = s.request ∧
    (enterDeselect s).done = s.done ∧ (enterDeselect s).res = s.res ∧ (enterDeselect s).sdi = s.sdi ∧
    (enterDeselect s).active = s.active ∧ (enterDeselect s).queue = s.queue ∧
    (enterDeselect s).samples = s.samples ∧ (enterDeselect s).resets = s.resets ∧
    (enterDeselect s).fine = s.fine := by
  and_intros <;> rfl

end Sys2Proof.Machine
end

