-- ==== Sys2Proof/Laws/Decoder.lean ====
section
/-! SUPPORT. What one decode does (41_framedecoder.md rules R150 to R157). -/

namespace Sys2Proof.Machine

/-- The flags a decode writes, by the layout of the frame (R169, `flt_next`). -/
theorem frameDecode_errflags (v : Word) (s : State) :
    (frameDecode v s).1.errflags = if highHalf v = lowHalf v then flags16 v else flags32 v := by
  unfold frameDecode variantOf
  split_ifs <;> rfl

/-- The internal field a decode writes (R169, `intraw_next`). -/
theorem frameDecode_intraw (v : Word) (s : State) :
    (frameDecode v s).1.intraw = if highHalf v = lowHalf v then 0 else int12 v := by
  unfold frameDecode variantOf
  split_ifs <;> rfl

/-- A decode writes the flags and the internal field and nothing else (R157). -/
theorem frameDecode_state (v : Word) (s : State) :
    (frameDecode v s).1 =
      { s with errflags := (frameDecode v s).1.errflags, intraw := (frameDecode v s).1.intraw } := by
  unfold frameDecode
  cases variantOf v <;> rfl

/-- The result of a decode: the comparator on the flags it writes, and the count of the layout (R153, R154). -/
theorem frameDecode_reading (v : Word) (s : State) :
    (frameDecode v s).2 =
      maskedReading s.mask (frameDecode v s).1.errflags
        (if highHalf v = lowHalf v then count16 v else count32 v) := by
  unfold frameDecode variantOf
  split_ifs <;> rfl

/-- The OR form is sign extension (R155). -/
theorem extendExternal_eq (f : BitVec 14) : extendExternal f = f.signExtend 32 := by
  apply BitVec.eq_of_getLsbD_eq
  intro i hi
  have hm : (0xFFFFC000#32).getLsbD i = decide (14 ≤ i) := by
    interval_cases i <;> decide
  rw [BitVec.getLsbD_signExtend, BitVec.msb_eq_getLsbD_last]
  unfold extendExternal
  split_ifs with h13 h14 <;> simp_all [-BitVec.getLsbD_eq_getElem]

/-- The OR form is sign extension (R156). -/
theorem extendInternal_eq (r : Internal) : extendInternal r = r.signExtend 16 := by
  apply BitVec.eq_of_getLsbD_eq
  intro i hi
  have hm : (0xF800#16).getLsbD i = decide (11 ≤ i) := by
    interval_cases i <;> decide
  rw [BitVec.getLsbD_signExtend, BitVec.msb_eq_getLsbD_last]
  unfold extendInternal
  split_ifs with h11 h12
  · have : 11 ≤ i → r.getLsbD i = true := fun h => by rwa [show i = 11 by omega]
    simpa [hm, -BitVec.getLsbD_eq_getElem, hi] using this
  · simp_all [-BitVec.getLsbD_eq_getElem]
    omega
  · simp_all [-BitVec.getLsbD_eq_getElem]
  · simp_all [-BitVec.getLsbD_eq_getElem]

end Sys2Proof.Machine
end

