-- ==== Sys2Proof/Laws/Encoding.lean ====
section
/-! SUPPORT. The parts of a command word (the layout of assumption log 1). -/

namespace Sys2Proof

@[simp] theorem Command.make_op (u : BitVec 5) (o : BitVec 3) (a : Word) : (Command.make u o a).op = o := by
  ext i hi
  simp [Command.op, Command.make, hi, show i < 8 by omega, show i < 40 by omega]

@[simp] theorem Command.make_unit (u : BitVec 5) (o : BitVec 3) (a : Word) : (Command.make u o a).unit = u := by
  ext i hi
  simp [Command.unit, Command.make, hi, show 3 + i < 8 by omega, show 3 + i < 40 by omega]

@[simp] theorem Command.make_arg (u : BitVec 5) (o : BitVec 3) (a : Word) : (Command.make u o a).arg = a := by
  ext i hi
  simp [Command.arg, Command.make, hi, show 8 + i < 40 by omega, BitVec.getLsbD_of_ge o (8 + i) (by omega),
    BitVec.getLsbD_of_ge u (8 + i - 3) (by omega)]

/-- A command word is its three parts. -/
theorem Command.make_parts (c : Command) : Command.make c.unit c.op c.arg = c := by
  ext i hi
  by_cases h3 : i < 3
  · simp [Command.make, Command.unit, Command.op, Command.arg, h3, show i < 8 by omega, hi]
  · by_cases h8 : i < 8
    · simp [Command.make, Command.unit, Command.op, Command.arg, h3, h8, hi, show i - 3 < 5 by omega,
        show 3 + (i - 3) = i by omega]
    · simp [Command.make, Command.unit, Command.op, Command.arg, h3, h8, hi, show ¬ i - 3 < 5 by omega,
        show i - 8 < 32 by omega, show 8 + (i - 8) = i by omega]

/-- An operand widened to the operand field leaves no stray bit above it. -/
theorem operand_stray {w k n : Nat} (x : BitVec w) (h : w ≤ k) :
    (x.setWidth n).extractLsb' k (n - k) = 0#(n - k) := by
  ext i hi
  simp [BitVec.getLsbD_of_ge x (k + i) (by omega)]

@[simp] theorem operand_byte_stray (x : Byte) : (x.setWidth 32).extractLsb' 8 24 = 0#24 :=
  operand_stray (n := 32) (k := 8) x (by omega)

@[simp] theorem operand_internal_stray (x : Internal) : (x.setWidth 32).extractLsb' 12 20 = 0#20 :=
  operand_stray (n := 32) (k := 12) x (by omega)

/-- An operand is read back from the operand field. -/
@[simp] theorem operand_back {w n : Nat} (x : BitVec w) (h : w ≤ n) : (x.setWidth n).extractLsb' 0 w = x := by
  ext i hi
  simp [BitVec.getLsbD_eq_getElem hi, show i < n by omega]

/-- A word without stray bits is accepted, any other refused. -/
theorem noStray_eq_ok {n : Nat} {rest : BitVec n} {i j : Instr} :
    noStray rest i = .ok j ↔ rest = 0 ∧ i = j := by
  unfold noStray
  split <;> simp_all

end Sys2Proof
end

