-- ==== Sys2Proof/Laws/PerInstr.lean ====
section
/-! SUPPORT. Laws stated for each operation as syntax.

`Layout`: the word of an operation lies in unit 0 exactly when the host can select it on its port
(30_encoding.md rules R100, R101). -/

namespace Sys2Proof.Laws.Layout

/-- The unit of the operation's word is 0 exactly for a host operation, and every unit is one of the six. -/
def Statement (i : Instr) : Prop :=
  ((encodeCommand i).unit = 0 ↔ i.isHostOp = true) ∧ (encodeCommand i).unit ≤ 5

theorem initialise : Statement .initialise := by simp [Statement, encodeCommand, Instr.isHostOp]
theorem readExtC : Statement .readExtC := by simp [Statement, encodeCommand, Instr.isHostOp]
theorem readIntC : Statement .readIntC := by simp [Statement, encodeCommand, Instr.isHostOp]
theorem getErr : Statement .getErr := by simp [Statement, encodeCommand, Instr.isHostOp]
theorem setMask (bits : Byte) : Statement (.setMask bits) := by simp [Statement, encodeCommand, Instr.isHostOp]
theorem read32 : Statement .read32 := by simp [Statement, encodeCommand, Instr.isHostOp]
theorem read32BitBang : Statement .read32BitBang := by simp [Statement, encodeCommand, Instr.isHostOp]
theorem read32Burst : Statement .read32Burst := by simp [Statement, encodeCommand, Instr.isHostOp]
theorem initPins : Statement .initPins := by simp [Statement, encodeCommand, Instr.isHostOp]
theorem decode (v : Word) : Statement (.decode v) := by simp [Statement, encodeCommand, Instr.isHostOp]
theorem classify (v : Word) : Statement (.classify v) := by simp [Statement, encodeCommand, Instr.isHostOp]
theorem decode16 (v : Word) : Statement (.decode16 v) := by simp [Statement, encodeCommand, Instr.isHostOp]
theorem decode32 (v : Word) : Statement (.decode32 v) := by simp [Statement, encodeCommand, Instr.isHostOp]
theorem intC (r : Internal) : Statement (.intC r) := by simp [Statement, encodeCommand, Instr.isHostOp]

end Sys2Proof.Laws.Layout
end

