-- ==== Sys2Proof/Laws/Transport.lean ====
section
/-! SUPPORT. What the transfers of BitTransport do, in closed form (40_bittransport.md rules R127 to R131). -/

namespace Sys2Proof.Machine

open Sys2Proof.Safety

/-- `n` one-bit shifts of the samples `f 0`, `f 1`, … into an accumulator, most recent in bit 0 (R21). -/
def shiftIn (f : Nat → Level) : Nat → Word → Word
  | 0, a => a
  | n + 1, a => (shiftIn f n a <<< 1) ||| (f n).setWidth 32

/-- After `n` shifts bit `i` is the sample `n-1-i`, or what stood `n` places lower before. -/
theorem shiftIn_getLsbD (f : Nat → Level) (a : Word) (n i : Nat) (hi : i < 32) :
    (shiftIn f n a).getLsbD i = if i < n then f (n - 1 - i) == 1 else a.getLsbD (i - n) := by
  induction n generalizing i with
  | zero => simp [shiftIn]
  | succ n ih =>
    have hbit : (f n).getLsbD 0 = (f n == 1) := by
      generalize f n = b
      revert b
      decide
    rcases i with _ | i
    · simpa [shiftIn] using hbit
    · have : i + 1 - (n + 1) = i - n := by omega
      have h2 : n - (i + 1) = n - 1 - i := by omega
      have hs := ih i (by omega)
      rw [BitVec.getLsbD_eq_getElem (by omega)] at hs
      simpa [shiftIn, hi, this, h2] using hs

/-- Shifting in two runs is shifting in one. -/
theorem shiftIn_add (f : Nat → Level) (a : Word) (m n : Nat) :
    shiftIn f (m + n) a = shiftIn (fun k => f (m + k)) n (shiftIn f m a) := by
  induction n with
  | zero => rfl
  | succ n ih => rw [Nat.add_succ, shiftIn, ih, shiftIn]

/-- 32 shifts leave nothing of what the accumulator held (R131). -/
theorem shiftIn_samplesAre (s : State) (a : Word) : SamplesAre s (shiftIn (levelAt s) 32 a) := by
  intro k hk
  rw [shiftIn_getLsbD _ _ _ _ (by omega), if_pos (by omega)]
  congr 2
  omega

/-- The sample `k` after `n` have been taken is the sample `n + k`. -/
@[simp] theorem levelAt_skipLevels (s : State) (n k : Nat) :
    levelAt (skipLevels n s) k = levelAt s (n + k) := by
  simp [levelAt, List.getD_eq_getElem?_getD, List.getElem?_drop, Nat.add_assoc]

/-- The samples to come depend on the line alone. -/
theorem levelAt_congr {s t : State} (h1 : s.sdi = t.sdi) (h2 : s.samples = t.samples) : levelAt s = levelAt t := by
  funext k
  simp [levelAt, h1, h2]

/-- Eight levels, the first in bit 7. -/
theorem levels_getLsbD : ∀ b0 b1 b2 b3 b4 b5 b6 b7 : Level, ∀ i : Fin 8,
    (b0 ++ b1 ++ b2 ++ b3 ++ b4 ++ b5 ++ b6 ++ b7 : Byte).getLsbD i =
      ([b7, b6, b5, b4, b3, b2, b1, b0].getD i 0 == 1) := by
  decide +kernel

/-- Bit `i` of a peripheral byte is the sample `7-i` (R52). -/
theorem peripheralByte_getLsbD (s : State) (i : Nat) (hi : i < 8) :
    (peripheralByte s).getLsbD i = (levelAt s (7 - i) == 1) := by
  rw [peripheralByte, levels_getLsbD _ _ _ _ _ _ _ _ ⟨i, hi⟩]
  interval_cases i <;> rfl

/-- A byte is eight bits, most significant first (R52, R129). -/
theorem shift_peripheralByte (s : State) (a : Word) :
    (a <<< 8) ||| (peripheralByte s).setWidth 32 = shiftIn (levelAt s) 8 a := by
  apply BitVec.eq_of_getLsbD_eq
  intro i hi
  rw [shiftIn_getLsbD _ _ _ _ hi]
  by_cases h8 : i < 8
  · have hb := peripheralByte_getLsbD s i h8
    rw [BitVec.getLsbD_eq_getElem h8] at hb
    simpa [h8, hi] using hb
  · have hb := BitVec.getLsbD_of_ge (peripheralByte s) i (by omega)
    simp [h8, hi, hb, BitVec.getLsbD_eq_getElem (show i - 8 < 32 by omega)]

/-- `n + 1` iterations of the BitBang loop (R127). -/
theorem bitCycle_iterate (n : Nat) (s : State) :
    bitCycle^[n + 1] s =
      { s with ph := .bitHigh, sck := 1, acc := shiftIn (levelAt s) (n + 1) s.acc,
               bitcnt := s.bitcnt + BitVec.ofNat 6 (n + 1), sdi := s.sdi.drop (n + 1),
               samples := s.samples + (n + 1) } := by
  induction n with
  | zero => rfl
  | succ n ih =>
    rw [Function.iterate_succ_apply', ih]
    simp only [bitCycle, enterBitHigh, enterBitSample, enterBitLow, skipLevels, levelAt, shiftIn]
    simp [List.getD_eq_getElem?_getD, List.getElem?_drop, Nat.add_assoc, BitVec.add_assoc, BitVec.ofNat_add]

/-- `n + 1` bytes of the Burst loop (R128). -/
theorem enterBurstByte_iterate (n : Nat) (s : State) :
    enterBurstByte^[n + 1] s =
      { s with ph := .bitSample, acc := shiftIn (levelAt s) (8 * (n + 1)) s.acc,
               bitcnt := s.bitcnt + BitVec.ofNat 6 (8 * (n + 1)), sdi := s.sdi.drop (8 * (n + 1)),
               samples := s.samples + 8 * (n + 1) } := by
  induction n with
  | zero =>
    have h := shift_peripheralByte s s.acc
    simp only [Function.iterate_succ_apply, Function.iterate_zero, id, enterBurstByte, skipLevels]
    rw [← h]
    rfl
  | succ n ih =>
    rw [Function.iterate_succ_apply', ih]
    simp only [enterBurstByte, skipLevels]
    rw [shift_peripheralByte, show 8 * (n + 1 + 1) = 8 * (n + 1) + 8 by ring, shiftIn_add]
    have h : levelAt
        { s with ph := .bitSample, acc := shiftIn (levelAt s) (8 * (n + 1)) s.acc,
                 bitcnt := s.bitcnt + BitVec.ofNat 6 (8 * (n + 1)), sdi := s.sdi.drop (8 * (n + 1)),
                 samples := s.samples + 8 * (n + 1) } = fun k => levelAt s (8 * (n + 1) + k) :=
      funext (levelAt_skipLevels s (8 * (n + 1)))
    rw [h]
    simp [Nat.add_assoc, BitVec.add_assoc, BitVec.ofNat_add]

/-- The transfer of either mode (R126): 32 samples into the accumulator; only BitBang drives the clock. -/
theorem transfer_eq (s : State) :
    transfer s =
      { s with ph := if s.mode = .bitBang then .bitHigh else .bitSample,
               sck := if s.mode = .bitBang then 1 else s.sck,
               acc := shiftIn (levelAt s) 32 s.acc, bitcnt := s.bitcnt + 32, sdi := s.sdi.drop 32,
               samples := s.samples + 32 } := by
  cases hm : s.mode with
  | bitBang => simpa [transfer, hm, transferBitBang] using bitCycle_iterate 31 s
  | burst => simpa [transfer, hm, transferBurst] using enterBurstByte_iterate 3 s

/-- `READ32` up to its return (R126): what it leaves in every field. -/
theorem readFrame_eq (s : State) :
    readFrame s =
      { s with ph := .deselect, begun := true, csN := 1, sck := if s.mode = .bitBang then 1 else s.sck,
               acc := shiftIn (levelAt s) 32 0, bitcnt := 32, sdi := s.sdi.drop 32,
               samples := s.samples + 32 } := by
  have hl : levelAt (enterSettle (enterSelect (ensureBegun s))) = levelAt s := by
    apply levelAt_congr <;> cases hb : s.begun <;> simp [ensureBegun, hb]
  rw [readFrame, transfer_eq, hl]
  cases hb : s.begun <;> cases hm : s.mode <;>
    simp [ensureBegun, hb, hm, enterInitPins, enterSelect, enterSettle, enterDeselect]

end Sys2Proof.Machine
end

