-- ==== Sys2Proof/Laws/Run.lean ====
section
/-! SUPPORT. Runs of the machine, and which step a state takes. -/

namespace Sys2Proof.Machine

open Sys2Proof.Safety

@[simp] theorem runSteps_zero (s : State) : runSteps 0 s = .next s := rfl

/-- A run goes on from the state its first step ends in. -/
theorem runSteps_succ {s t : State} (n : Nat) (h : step s = .next t) : runSteps (n + 1) s = runSteps n t := by
  rw [runSteps, h]

/-- A run of `m + n` steps is a run of `n` steps from where `m` steps end. -/
theorem runSteps_add {s t : State} (m n : Nat) (h : runSteps m s = .next t) :
    runSteps (m + n) s = runSteps n t := by
  induction m generalizing s with
  | zero =>
    cases h
    rw [Nat.zero_add]
  | succ m ih =>
    rw [runSteps] at h
    split at h
    · next u hs =>
      rw [Nat.add_right_comm, runSteps_succ _ hs]
      exact ih h
    · cases h
    · cases h

/-- A run of any machine goes on from the state its first step ends in. -/
theorem hostRun_succ (M : Host.Core) {s t : M.State} (n : Nat) (h : M.step s = .next t) :
    M.run (n + 1) s = M.run n t := by
  rw [Host.Core.run, h]

/-- A run of any machine stops where its first step is refused. -/
theorem hostRun_refused (M : Host.Core) {s : M.State} {r : M.Refusal} (n : Nat) (h : M.step s = .refused r) :
    M.run (n + 1) s = .refused r := by
  rw [Host.Core.run, h]

/-- This is the run of the host's interface. -/
theorem runSteps_eq_core_run (n : Nat) (s : State) : runSteps n s = Host.Core.run Sys2Proof.core n s := by
  induction n generalizing s with
  | zero => rfl
  | succ n ih =>
    cases hs : step s with
    | next t => exact (runSteps_succ n hs).trans ((ih t).trans (hostRun_succ Sys2Proof.core n hs).symm)
    | fault r => exact nomatch r
    | refused r =>
      have h : runSteps (n + 1) s = .refused r := by simp [runSteps, hs]
      exact h.trans (hostRun_refused Sys2Proof.core n hs).symm

/-- A busy block nothing is presented to makes one transition of the sequencer (R134). -/
theorem step_busy {s : State} (hrst : s.rst = false) (hreq : s.request = none) (hph : s.ph ≠ .idle) :
    step s = .next (tick s) := by
  cases h : s.ph <;> simp_all [step, fetch, fetchBusy]

/-- An idle block that is not being reset looks at its port, then at the host's list (R180). -/
theorem step_idle {s : State} (hrst : s.rst = false) (hph : s.ph = .idle) :
    step s =
      match fetchIdle s with
      | .run i t => exec i t
      | .advance t => .next t
      | .refuse r => .refused r := by
  have h : fetch s = fetchIdle s := by simp [fetch, hrst, hph]
  unfold step
  generalize fetch s = f at h ⊢
  subst h
  cases fetchIdle s <;> rfl

/-- An operation that decodes is launched. -/
theorem accept_ok {c : Command} {i : Instr} (h : decodeCommand c = .ok i) (s : State) :
    accept c s = launch i s := by
  simp [accept, h]

/-- A launched operation runs as a whole unless the block is watched phase by phase. -/
@[simp] theorem launch_whole {s : State} (h : s.fine = false) (i : Instr) : launch i s = .run i s := by
  simp [launch, h]

end Sys2Proof.Machine
end

