-- ==== Sys2Proof/Tests/Slice0.lean ====
section
/-! SUPPORT. Tests: ill-formed terms refused, words written out from the spec's encodings, one step of each operation
on a small state (expected results from 95_test_vectors.md), and a witness for the hypotheses of each obligation. -/

namespace Sys2Proof.Tests

open Sys2Proof.Machine Sys2Proof.Safety

/-! ## Well-formedness -/

theorem test_wf_refuses_decode16_with_different_halves : Instr.wf (.decode16 0x01900100) = false := by decide

theorem test_wf_refuses_decode32_with_equal_halves : Instr.wf (.decode32 0x01900190) = false := by decide

theorem test_decoder_refuses_frames_of_the_other_layout :
    decodeCommand 0x0190010022 = .error .frameLayout ∧ decodeCommand 0x0190019023 = .error .frameLayout := by
  decide

/-! ## Decoding: words written out from the spec's encodings in the layout of assumption log 1 -/

/-- R101: `OP = 000`, with `OP_ARG` ignored. -/
theorem test_decode_initialise :
    decodeCommand 0b00000000_000 = .ok .initialise ∧ decodeCommand 0xFF00 = .ok .initialise := by decide

/-- R101: `OP = 001`. -/
theorem test_decode_readExtC : decodeCommand 0b00000000_001 = .ok .readExtC := by decide

/-- R101: `OP = 010`. -/
theorem test_decode_readIntC : decodeCommand 0b00000000_010 = .ok .readIntC := by decide

/-- R101: `OP = 011`. -/
theorem test_decode_getErr : decodeCommand 0b00000000_011 = .ok .getErr := by decide

/-- R101, R102: `OP = 100` with `OP_ARG = 0xFA`. -/
theorem test_decode_setMask : decodeCommand 0b11111010_00000_100 = .ok (.setMask 0xFA) := by decide

/-- R103: `OP = 101`, `110`, `111`. -/
theorem test_decode_reserved_codes :
    decodeCommand 0b101 = .error (.reservedOp 5) ∧ decodeCommand 0b110 = .error (.reservedOp 6) ∧
      decodeCommand 0b111 = .error (.reservedOp 7) := by decide

/-- R123: phase code 001, unit 1. -/
theorem test_decode_initPins : decodeCommand 0b00001_001 = .ok .initPins := by decide

/-- Row READ32: either strap value, unit 2. -/
theorem test_decode_read32 :
    decodeCommand 0b00010_000 = .ok .read32 ∧ decodeCommand 0b00010_001 = .ok .read32 := by decide

/-- R106: strap 0, unit 3. -/
theorem test_decode_read32BitBang : decodeCommand 0b00011_000 = .ok .read32BitBang := by decide

/-- R106: strap 1, unit 3. -/
theorem test_decode_read32Burst : decodeCommand 0b00011_001 = .ok .read32Burst := by decide

/-- Row DECODE: 32 frame bits, unit 4. -/
theorem test_decode_decode : decodeCommand 0x0190010020 = .ok (.decode 0x01900100) := by decide

/-- Row CLASSIFY. -/
theorem test_decode_classify : decodeCommand 0x0190010021 = .ok (.classify 0x01900100) := by decide

/-- R82: c = 0000000110010, o = 0, x = 00, twice. -/
theorem test_decode_decode16 :
    decodeCommand 0b0000000110010_0_00_0000000110010_0_00_00100_010 = .ok (.decode16 0x01900190) := by decide

/-- R81: e = 00000001100100, x = 00, i = 000000010000, x = 0, sgo = 001. -/
theorem test_decode_decode32 :
    decodeCommand 0b00000001100100_00_000000010000_0_001_00100_011 = .ok (.decode32 0x01900101) := by decide

/-- R156: s = 1, i = 10010010000, unit 5. -/
theorem test_decode_intC : decodeCommand 0b1_10010010000_00101_000 = .ok (.intC 0xC90) := by decide

/-- No unit 6, no row 2 in unit 1, and no bit outside the ports. -/
theorem test_decode_refuses_the_rest :
    decodeCommand 0b00110_000 = .error .noSuchRow ∧ decodeCommand 0b00001_010 = .error .noSuchRow ∧
      decodeCommand 0x10000 = .error .strayBits := by decide

/-- Words as opcode_table.json numbers them: a host code, a frame of 32 bits, a field of 12. -/
theorem test_decode_table_words :
    decodeTableWord 8 3 = some .getErr ∧ decodeTableWord 8 5 = none ∧
      decodeTableWord 32 0x01900100 = some (.decode 0x01900100) ∧ decodeTableWord 16 0xC90 = some (.intC 0xC90) := by
  decide

/-- The codes in the words are the strap's (R106) and the phase's (R123). -/
theorem test_codes_of_strap_and_phase :
    (encodeCommand .read32BitBang).op = Mode.bitBang.strap.setWidth 3 ∧
      (encodeCommand .read32Burst).op = Mode.burst.strap.setWidth 3 ∧
      (encodeCommand .initPins).op = Phase.initPins.code := by decide

/-! ## Small states -/

/-- The levels of a frame in time order (R51). -/
def levelsOf (v : Word) : List Level := (List.range 32).map fun k => v.extractLsb' (31 - k) 1

/-- An idle block whose pins are established, with `ACC` and `SCK` left by an earlier read; the chip will send `v`. -/
def idleBlock (m : Mode) (mask : Flags) (v : Word) : State where
  acc := 0xDEADBEEF
  bitcnt := 32
  ph := .idle
  begun := true
  mask := mask
  errflags := 0b101
  intraw := 0xC90
  csN := 1
  sck := 1
  mode := m
  rst := false
  request := none
  done := false
  res := .none
  sdi := levelsOf v
  active := .none
  queue := []
  samples := 0
  resets := 0
  fine := false

/-- The same before its pins are established. -/
def freshBlock (m : Mode) (v : Word) : State :=
  { idleBlock m 7 v with begun := false, csN := 0, sck := 1 }

/-- A block in the middle of a read. -/
def busyBlock (m : Mode) (p : Phase) (n : BitVec 6) : State :=
  { idleBlock m 7 0x01900100 with ph := p, active := .readExtC, csN := 0, sck := 0, bitcnt := n }

/-- One field of the state an outcome ends in. -/
def after {α : Type} (f : State → α) : Host.Outcome State Fault Refusal → Option α
  | .next t => some (f t)
  | .fault _ => none
  | .refused _ => none

/-! ## One step of each operation -/

/-- R181, corner case: `SCK` goes back to 0 after a read. -/
theorem test_initialise_pins :
    after (fun t => (t.begun, t.csN, t.sck, t.mask)) (exec .initialise (freshBlock .bitBang 0)) =
      some (true, 1, 0, 7) := by decide

/-- R124: in Burst mode the block does not drive the clock. -/
theorem test_initPins_burst_leaves_sck :
    after (fun t => (t.begun, t.csN, t.sck)) (exec .initPins (freshBlock .burst 0)) = some (true, 1, 1) := by decide

/-- Vector S3 (program P1, line 1): 25.0, flags 0, field 16, in a block that had no pins yet. -/
theorem test_readExtC_first_read :
    after (fun t => (t.res, t.errflags, t.intraw, t.begun, t.csN, t.sck))
      (exec .readExtC (freshBlock .bitBang 0x01900100)) =
      some (.external (.quarters 100), 0, 0x010, true, 1, 1) := by decide +kernel

/-- Vector S4 in Burst mode: the sentinel, with flags and field recorded. -/
theorem test_readExtC_masked :
    after (fun t => (t.res, t.errflags, t.intraw)) (exec .readExtC (idleBlock .burst 7 0x01900101)) =
      some (.external .nan, 1, 0x010) := by decide +kernel

/-- Vector I9: -55.0 is -880 sixteenths. -/
theorem test_readIntC_negative :
    after (fun t => (t.res, resQ t, resNan t)) (exec .readIntC (idleBlock .bitBang 7 0)) =
      some (.internal 0xFFFFFC90, some 0xFFFFFC90, some 0) := by decide

/-- R184: the flags, not masked. -/
theorem test_getErr_unmasked :
    after (fun t => (resFlags t, t.errflags)) (exec .getErr (idleBlock .bitBang 0 0)) = some (some 0b101, 0b101) := by
  decide

/-- Section 2.7: `0xFA` gives 2, `0xF8` gives 0. -/
theorem test_setMask_truncates :
    after State.mask (exec (.setMask 0xFA) (idleBlock .bitBang 7 0)) = some 2 ∧
      after State.mask (exec (.setMask 0xF8) (idleBlock .bitBang 7 0)) = some 0 := by decide

/-- Vector T1. -/
theorem test_read32_bitBang :
    after (fun t => (t.res, t.acc, t.bitcnt, t.sck, t.csN)) (exec .read32 (idleBlock .bitBang 7 0x01900100)) =
      some (.rawSample 0x01900100, 0x01900100, 32, 1, 1) := by decide +kernel

/-- Vector T6: the first bit is the most significant. -/
theorem test_read32_burst_first_bit :
    after State.res (exec .read32 (idleBlock .burst 7 0x80000000)) = some (.rawSample 0x80000000) := by decide +kernel

/-- Vector T2: whatever `ACC` held. -/
theorem test_read32BitBang_pushes_the_old_bits_out :
    after State.res (exec .read32BitBang (idleBlock .bitBang 7 0x01900100)) = some (.rawSample 0x01900100) := by
  decide +kernel

/-- Vector T3. -/
theorem test_read32Burst_bytes :
    after State.res (exec .read32Burst (idleBlock .burst 7 0x01900100)) = some (.rawSample 0x01900100) := by
  decide +kernel

/-- Vector V7: `w[15]` is no sign. -/
theorem test_decode_of_sixteenBit_frame :
    after (fun t => (t.res, t.errflags, t.intraw)) (exec (.decode 0x80008000) (idleBlock .bitBang 7 0)) =
      some (.external (.quarters 4096), 0, 0) := by decide

/-- Vector W12. -/
theorem test_decode_of_thirtyTwoBit_frame :
    after (fun t => (t.res, t.errflags, t.intraw)) (exec (.decode 0xF0601900) (idleBlock .bitBang 7 0)) =
      some (.external (.quarters 0xFFFFFC18), 0, 0x190) := by decide

/-- Vectors K1, K5, K6. -/
theorem test_classify :
    after State.res (exec (.classify 0x01900190) (idleBlock .bitBang 7 0)) = some (.variant .sixteenBit) ∧
      after State.res (exec (.classify 0x01900191) (idleBlock .bitBang 7 0)) = some (.variant .thirtyTwoBit) ∧
      after State.res (exec (.classify 0x81900190) (idleBlock .bitBang 7 0)) = some (.variant .thirtyTwoBit) := by
  decide

/-- Vector V6: OpenCircuit stands at bit 0, so mask 6 does not suppress. -/
theorem test_decode16_openCircuit_unmasked :
    after (fun t => (t.res, t.errflags)) (exec (.decode16 0x00040004) (idleBlock .bitBang 6 0)) =
      some (.external (.quarters 0), 1) := by decide

/-- Vector V13: mask 1 suppresses. -/
theorem test_decode16_openCircuit_masked :
    after (fun t => (t.res, t.errflags)) (exec (.decode16 0x00040004) (idleBlock .bitBang 1 0)) =
      some (.external .nan, 1) := by decide

/-- Vector W13: the most negative value. -/
theorem test_decode32_most_negative :
    after (fun t => (t.res, t.intraw)) (exec (.decode32 0x80000000) (idleBlock .bitBang 7 0)) =
      some (.external (.quarters 0xFFFFE000), 0) := by decide

/-- Vector W17: `v[17:16]` and `v[3]` are ignored. -/
theorem test_decode32_ignored_bits :
    after (fun t => (t.res, t.errflags, t.intraw)) (exec (.decode32 0x0193FFF8) (idleBlock .bitBang 7 0)) =
      some (.external (.quarters 100), 0, 0xFFF) := by decide

/-- Vectors I6 and I7. -/
theorem test_intC_extremes :
    after State.res (exec (.intC 0x7FF) (idleBlock .bitBang 7 0)) = some (.internal 2047) ∧
      after State.res (exec (.intC 0x800) (idleBlock .bitBang 7 0)) = some (.internal 0xFFFFF800) := by decide

/-- Patterns of sections 2.3 to 2.5: V1, V4, W12, W13, I9, I11 and zero. -/
theorem test_binary32_patterns :
    binary32 50 2 = 0x41480000 ∧ binary32 8191 2 = 0x44FFF800 ∧ binary32 (-1000) 2 = 0xC37A0000 ∧
      binary32 (-8192) 2 = 0xC5000000 ∧ binary32 (-880) 4 = 0xC25C0000 ∧ binary32 (-1) 4 = 0xBD800000 ∧
      binary32 0 2 = 0 := by decide +kernel

/-- R103 and R236 beside the nearest accepted input (section 2.9). -/
theorem test_step_refuses :
    step { idleBlock .bitBang 7 0 with request := some 5 } = .refused (.undecodable (.reservedOp 5)) ∧
      step { busyBlock .bitBang .settle 0 with request := some 1 } = .refused .reentrant :=
  ⟨rfl, rfl⟩

/-! ## Witnesses: every obligation's hypotheses can be met -/

/-- The operation `c` on the port of an idle block. -/
def presented (fine : Bool) (c : Command) : State :=
  { idleBlock .bitBang 7 0x01900100 with fine := fine, request := some c }

theorem test_witness_CommandWordsRoundTrip :
    Instr.wf (.decode16 0x01900190) = true ∧ Instr.wf (.decode32 0x01900100) = true ∧
      Instr.wf (.setMask 0xFF) = true ∧ Instr.wf (.intC 0xFFF) = true := by decide

theorem test_witness_DecodedOperationsAreWellFormed :
    decodeCommand 0x0190019022 = .ok (.decode16 0x01900190) := by decide

theorem test_witness_StepRunsThePresentedOperation_port :
    ∃ (s : State) (c : Command) (i : Instr), s.rst = false ∧ s.ph = .idle ∧ s.fine = false ∧
      decodeCommand c = .ok i ∧ s.request = some c :=
  ⟨presented false 3, 3, .getErr, by decide⟩

theorem test_witness_StepRunsThePresentedOperation_queue :
    ∃ (s : State) (c : Command) (i : Instr) (cs : List Command), s.rst = false ∧ s.ph = .idle ∧ s.fine = false ∧
      decodeCommand c = .ok i ∧ s.request = none ∧ s.queue = c :: cs :=
  ⟨{ idleBlock .bitBang 7 0 with queue := [0xFF04, 1] }, 0xFF04, .setMask 0xFF, [1], by decide⟩

theorem test_witness_StepRunsUnsequencedOperationWatched :
    ∃ (s : State) (c : Command) (i : Instr), s.rst = false ∧ s.ph = .idle ∧ s.fine = true ∧
      s.request = some c ∧ decodeCommand c = .ok i ∧ i ≠ .initialise ∧ i ≠ .readExtC ∧ i ≠ .read32 ∧ i ≠ .initPins :=
  ⟨presented true 2, 2, .readIntC, by decide⟩

theorem test_witness_PlacedWordRunsNext :
    decodeTableWord 8 1 = some .readExtC ∧ strapSelects .bitBang .readExtC = true ∧
      decodeTableWord 40 0x19 = some .read32Burst ∧ strapSelects .bitBang .read32Burst = false := by decide

theorem test_witness_IdleBlockWaits :
    ∃ s : State, s.rst = false ∧ s.ph = .idle ∧ s.request = none ∧ s.queue = [] :=
  ⟨idleBlock .bitBang 7 0, by decide⟩

theorem test_witness_StepRefusals_reserved :
    ∃ (s u : State), s.rst = false ∧ s.ph = .idle ∧ (5 : BitVec 3) ≤ 5 ∧
      s.request = some (Command.make 0 5 ((0 : Byte).setWidth 32)) ∧ u.rst = false ∧ u.ph = .idle ∧
      (5 : BitVec 3) ≤ 7 ∧ u.request = some (Command.make 0 7 ((0xFF : Byte).setWidth 32)) :=
  ⟨presented false 5, presented false 0xFF07, by decide⟩

theorem test_witness_StepRefusals_reentrant :
    ∃ (s : State) (c : Command), s.rst = false ∧ s.ph ≠ .idle ∧ s.request = some c :=
  ⟨{ busyBlock .bitBang .select 0 with request := some 1 }, 1, by decide⟩

theorem test_witness_StepRefusals_reset : ∃ s : State, s.rst = true ∧ s.ph ≠ .idle :=
  ⟨{ busyBlock .bitBang .deselect 32 with rst := true }, by decide⟩

theorem test_witness_ResetMayRecurWhileIdle : ∃ s : State, s.rst = true ∧ s.ph = .idle :=
  ⟨{ idleBlock .burst 0 0 with rst := true }, by decide⟩

theorem test_witness_transfers :
    (idleBlock .bitBang 7 0).mode = .bitBang ∧ (idleBlock .burst 7 0).mode = .burst := by decide

theorem test_witness_BothModesReadTheSameFrame :
    Instr.readExtC ≠ .read32BitBang ∧ Instr.readExtC ≠ .read32Burst := by decide

/-- What every clause of SequencerTransitions assumes. -/
def goesOn (s : State) : Bool := s.rst == false && s.request == none && s.ph != .idle

theorem test_witness_SequencerTransitions_initPins_select_settle :
    goesOn (busyBlock .bitBang .initPins 0) = true ∧ (busyBlock .bitBang .initPins 0).ph = .initPins ∧
      goesOn (busyBlock .bitBang .select 0) = true ∧ (busyBlock .bitBang .select 0).ph = .select ∧
      goesOn (busyBlock .burst .settle 0) = true ∧ (busyBlock .burst .settle 0).ph = .settle := by decide

theorem test_witness_SequencerTransitions_bits :
    goesOn (busyBlock .bitBang .bitLow 31) = true ∧ (busyBlock .bitBang .bitLow 31).ph = .bitLow ∧
      goesOn (busyBlock .bitBang .bitSample 32) = true ∧ (busyBlock .bitBang .bitSample 32).ph = .bitSample ∧
      (busyBlock .bitBang .bitSample 32).mode = .bitBang ∧
      goesOn (busyBlock .bitBang .bitHigh 31) = true ∧ (busyBlock .bitBang .bitHigh 31).ph = .bitHigh ∧
      (busyBlock .bitBang .bitHigh 31).bitcnt < 32 ∧
      goesOn (busyBlock .bitBang .bitHigh 32) = true ∧ (busyBlock .bitBang .bitHigh 32).bitcnt = 32 := by decide

theorem test_witness_SequencerTransitions_bytes :
    goesOn (busyBlock .burst .bitSample 24) = true ∧ (busyBlock .burst .bitSample 24).mode = .burst ∧
      (busyBlock .burst .bitSample 24).bitcnt < 32 ∧
      goesOn (busyBlock .burst .bitSample 32) = true ∧ (busyBlock .burst .bitSample 32).bitcnt = 32 ∧
      goesOn (busyBlock .burst .deselect 32) = true ∧ (busyBlock .burst .deselect 32).ph = .deselect := by decide

theorem test_witness_SequencerLeavesIdle_port :
    ∀ p ∈ [((0 : Command), Instr.initialise), (1, .readExtC), (0x10, .read32), (0x09, .initPins), (2, .readIntC),
        (3, .getErr), (0xFF04, .setMask 0xFF)],
      (presented true p.1).rst = false ∧ (presented true p.1).ph = .idle ∧ (presented true p.1).fine = true ∧
        decodeCommand p.1 = .ok p.2 ∧ (presented true p.1).request = some p.1 ∧
        (presented true p.1).begun = true := by decide

theorem test_witness_SequencerLeavesIdle_queue_and_FirstReadInsertsInitPins :
    ∃ (s : State) (c : Command) (cs : List Command), s.rst = false ∧ s.ph = .idle ∧ s.fine = true ∧
      s.begun = false ∧ decodeCommand c = .ok .readExtC ∧ s.request = none ∧ s.queue = c :: cs :=
  ⟨{ freshBlock .burst 0 with fine := true, queue := [1, 3] }, 1, [3], by decide⟩

theorem test_witness_FirstReadInsertsInitPins_port :
    ∃ (s : State) (c : Command), s.rst = false ∧ s.ph = .idle ∧ s.fine = true ∧ s.begun = false ∧
      s.mode = .bitBang ∧ s.request = some c ∧ decodeCommand c = .ok .read32 :=
  ⟨{ freshBlock .bitBang 0 with fine := true, request := some 0x10 }, 0x10, by decide⟩

theorem test_witness_BitBangReadPinEvents :
    ∃ (s : State) (c : Command), s.rst = false ∧ s.ph = .idle ∧ s.fine = true ∧ s.mode = .bitBang ∧
      s.begun = true ∧ s.request = some c ∧ decodeCommand c = .ok .readExtC :=
  ⟨presented true 1, 1, by decide⟩

/-- The four operations the sequencer runs. -/
theorem test_witness_PhaseByPhaseRunEqualsTheOperation :
    ∀ p ∈ [((0 : Command), Instr.initialise), (1, .readExtC), (0x10, .read32), (0x09, .initPins)],
      (presented true p.1).rst = false ∧ (presented true p.1).ph = .idle ∧ (presented true p.1).fine = true ∧
        (presented true p.1).request = some p.1 ∧ decodeCommand p.1 = .ok p.2 := by decide

theorem test_witness_BusyBlockReachesIdle :
    ∃ s : State, Inv s ∧ s.ph ≠ .idle ∧ s.rst = false ∧ s.request = none :=
  ⟨busyBlock .bitBang .bitLow 31, by constructor <;> decide, by decide⟩

theorem test_witness_BitBangReadLeastTime : ∃ s : State, s.ph = .select ∧ s.mode = .bitBang :=
  ⟨busyBlock .bitBang .select 0, by decide⟩

theorem test_witness_FlagsAreIndependent :
    BitVec.extractLsb' 16 16 (0x01900106 : Word) ≠ BitVec.extractLsb' 0 16 (0x01900106 : Word) := by decide

theorem test_witness_MaskingTouchesTheResultOnly : ∃ m : Flags, m = 0 := ⟨0, rfl⟩

theorem test_witness_ExternalRangeIsAttained_result :
    ∃ (v : Word) (s t : State) (r : Reading) (x : ℚ), exec (.decode v) s = .next t ∧ t.res = .external r ∧
      r.celsius = some x :=
  ⟨0x80000000, idleBlock .bitBang 7 0, _, .quarters 0xFFFFE000, _, rfl, rfl, rfl⟩

/-- A result of the SixteenBit path, which the sign clause is about. -/
theorem test_witness_ExternalRangeIsAttained_sixteenBit :
    ∃ (v : Word) (s t : State) (r : Reading) (x : ℚ), exec (.decode v) s = .next t ∧ t.res = .external r ∧
      r.celsius = some x ∧ v.extractLsb' 16 16 = v.extractLsb' 0 16 :=
  ⟨0xFFF8FFF8, idleBlock .bitBang 7 0, _, .quarters 8191, _, rfl, rfl, rfl, by decide⟩

theorem test_witness_ExternalRangeIsAttained_counts :
    (-8192 ≤ (-8192 : Int) ∧ (-8192 : Int) ≤ 8191) ∧ (-8192 ≤ (8191 : Int) ∧ (8191 : Int) ≤ 8191) ∧
      (0 ≤ (0 : Int) ∧ (0 : Int) ≤ 8191) := by decide

theorem test_witness_InternalRangeIsAttained :
    (-2048 ≤ (-2048 : Int) ∧ (-2048 : Int) ≤ 2047) ∧ (-2048 ≤ (2047 : Int) ∧ (2047 : Int) ≤ 2047) := by decide

theorem test_witness_FloatResultsAreExact :
    ((-16777215 : Int).natAbs < 2 ^ 24 ∧ 126 ≤ 126) ∧ ((0 : Int).natAbs < 2 ^ 24 ∧ 0 ≤ 126) := by decide

theorem test_witness_AccessorsReflectTheLatestRead :
    (SamplesAre (idleBlock .bitBang 7 0x01900100) 0x01900100 ∧
      BitVec.extractLsb' 16 16 (0x01900100 : Word) ≠ BitVec.extractLsb' 0 16 (0x01900100 : Word)) ∧
    (SamplesAre (idleBlock .bitBang 7 0x01900190) 0x01900190 ∧
      BitVec.extractLsb' 16 16 (0x01900190 : Word) = BitVec.extractLsb' 0 16 (0x01900190 : Word)) := by
  unfold SamplesAre
  decide +kernel

theorem test_witness_ResultPortsCarryTheResult :
    after (fun t => t.errflags &&& (7 : Flags)) (exec (.decode 0x01900101) (idleBlock .bitBang 7 0)) = some 1 ∧
      after (fun t => t.errflags &&& (7 : Flags)) (exec (.decode 0x01900100) (idleBlock .bitBang 7 0)) = some 0 := by
  decide

/-- A frame of each layout, and one without a masked flag. -/
theorem test_witness_SentinelIsTheOnlyErrorResult_and_ReadAttemptsAreIndependent :
    (SamplesAre (idleBlock .burst 7 0x01900101) 0x01900101 ∧
      BitVec.extractLsb' 16 16 (0x01900101 : Word) ≠ BitVec.extractLsb' 0 16 (0x01900101 : Word)) ∧
    (SamplesAre (idleBlock .bitBang 7 0x00040004) 0x00040004 ∧
      BitVec.extractLsb' 16 16 (0x00040004 : Word) = BitVec.extractLsb' 0 16 (0x00040004 : Word)) ∧
    after (fun t => t.errflags &&& (7 : Flags)) (exec .readExtC (idleBlock .burst 7 0x01900100)) = some 0 := by
  unfold SamplesAre
  decide +kernel

/-- The five host operations. -/
theorem test_witness_EveryHostOperationCompletes :
    ∀ p ∈ [((0 : Command), Instr.initialise), (1, .readExtC), (2, .readIntC), (3, .getErr), (0xFA04, .setMask 0xFA)],
      (presented false p.1).rst = false ∧ (presented false p.1).ph = .idle ∧ (presented false p.1).fine = false ∧
        (presented false p.1).request = some p.1 ∧ decodeCommand p.1 = .ok p.2 ∧ p.2.isHostOp = true := by decide

/-- `GET_ERR` in a Burst block meets the hypotheses of every clause. -/
theorem test_witness_AccessMatrix :
    ∃ (i : Instr) (s t : State), exec i s = .next t ∧ s.mode = .burst ∧ (∀ b, i ≠ .setMask b) ∧ (∀ v, i ≠ .decode v) ∧
      (∀ v, i ≠ .decode16 v) ∧ (∀ v, i ≠ .decode32 v) ∧ i ≠ .initialise ∧ i ≠ .initPins ∧ i ≠ .readExtC ∧
      i ≠ .read32 ∧ i ≠ .read32BitBang ∧ i ≠ .read32Burst :=
  ⟨.getErr, idleBlock .burst 7 0, _, rfl, rfl, by simp⟩

theorem test_witness_BegunAndStrapPersist :
    ∃ s t : State, step s = .next t ∧ s.rst = false ∧ s.begun = true :=
  ⟨idleBlock .burst 7 0, _, rfl, by decide⟩

theorem test_witness_EveryStepKeepsTheInvariant : ∃ s t : State, Inv s ∧ step s = .next t :=
  ⟨busyBlock .burst .bitSample 24, _, by constructor <;> decide, rfl⟩

/-- An idle host with one operation on the port and one to come. -/
theorem test_witness_HostDuties_idle : HostDuties { presented false 1 with queue := [3] } where
  no_overlap := by decide
  no_reset := by decide
  request_runs := by
    rintro c ⟨⟩
    exact ⟨.readExtC, by decide⟩
  queue_runs := by
    intro c hc
    obtain rfl : c = 3 := by simpa using hc
    exact ⟨.getErr, by decide⟩

/-- A host waiting for a busy block. -/
theorem test_witness_HostDuties_busy : HostDuties (busyBlock .bitBang .bitHigh 32) where
  no_overlap := by decide
  no_reset := by decide
  request_runs := by rintro c ⟨⟩
  queue_runs := by simp [busyBlock, idleBlock]

end Sys2Proof.Tests
end

section
/-! PROOFS. The memory family: `READ32` in closed form, and the bit order of its RawSample (20_memory.md rule R51). -/

namespace Sys2Proof.Proofs.Memory

open Sys2Proof.Machine Sys2Proof.Safety

/-- `READ32` as a whole (R126): its RawSample is 32 samples shifted into a cleared accumulator, in either mode. -/
theorem exec_read32 (s : State) :
    exec .read32 s = .next
      { s with begun := true, csN := 1, sck := if s.mode = .bitBang then 1 else s.sck,
               acc := shiftIn (levelAt s) 32 0, bitcnt := 32, sdi := s.sdi.drop 32, samples := s.samples + 32,
               ph := .idle, active := .none, res := .rawSample (shiftIn (levelAt s) 32 0), done := true } := by
  rw [exec, execRead32, readFrame_eq]
  rfl

/-- Settles O17: `READ32` returns the shifted samples, and the shift puts sample `k` at bit `31 - k`. -/
theorem rawSampleIsMostSignificantFirst : Obligations.RawSampleIsMostSignificantFirst :=
  fun s => ⟨_, _, exec_read32 s, rfl, shiftIn_samplesAre s 0⟩

end Sys2Proof.Proofs.Memory
end

section
/-! PROOFS. The bit transport family: the strap `MODE` changes how a frame is transferred, not what an operation
returns (40_bittransport.md rule R129). -/

namespace Sys2Proof.Proofs.BitTransport

open Sys2Proof.Machine Sys2Proof.Safety Sys2Proof.Proofs.Memory

/-! ## The two transfers -/

/-- `TRANSFER_BITBANG` alone (R127), in a block whose strap selects it. -/
theorem exec_read32BitBang {s : State} (hmode : s.mode = .bitBang) :
    exec .read32BitBang s = .next
      { s with sck := 1, acc := shiftIn (levelAt s) 32 s.acc, bitcnt := s.bitcnt + 32, sdi := s.sdi.drop 32,
               samples := s.samples + 32, ph := .idle, active := .none,
               res := .rawSample (shiftIn (levelAt s) 32 s.acc), done := true } := by
  have ht : transferBitBang s = transfer s := by rw [transfer, hmode]
  simp [exec, execRead32BitBang, hmode, ht, transfer_eq, completeSequenced, complete]

/-- `TRANSFER_BURST` alone (R128), in a block whose strap selects it. -/
theorem exec_read32Burst {s : State} (hmode : s.mode = .burst) :
    exec .read32Burst s = .next
      { s with acc := shiftIn (levelAt s) 32 s.acc, bitcnt := s.bitcnt + 32, sdi := s.sdi.drop 32,
               samples := s.samples + 32, ph := .idle, active := .none,
               res := .rawSample (shiftIn (levelAt s) 32 s.acc), done := true } := by
  have ht : transferBurst s = transfer s := by rw [transfer, hmode]
  simp [exec, execRead32Burst, hmode, ht, transfer_eq, completeSequenced, complete]

/-- The next 32 samples make one frame only. -/
theorem samplesAre_unique {s : State} {v w : Word} (hv : SamplesAre s v) (hw : SamplesAre s w) : v = w := by
  apply BitVec.eq_of_getLsbD_eq
  intro i hi
  have hbit : 31 - (31 - i) = i := by omega
  simpa only [hbit] using (hv (31 - i) (by omega)).trans (hw (31 - i) (by omega)).symm

/-- What the accumulator held does not show after 32 shifts, so the transfers need no clearing of it (R131). -/
theorem shiftIn_levelAt_acc (s : State) (a : Word) : shiftIn (levelAt s) 32 a = shiftIn (levelAt s) 32 0 :=
  samplesAre_unique (shiftIn_samplesAre s a) (shiftIn_samplesAre s 0)

/-! ## Operations that end alike -/

/-- Both operations complete, with one result, and with the same flags, internal field, mask and `BEGUN`. -/
def EndAlike (o p : Host.Outcome State Fault Refusal) : Prop :=
  ∃ a b, o = .next a ∧ p = .next b ∧
    a.res = b.res ∧ a.errflags = b.errflags ∧ a.intraw = b.intraw ∧ a.mask = b.mask ∧ a.begun = b.begun

/-- A decode keeps the mask (R157). -/
@[simp] theorem frameDecode_mask (v : Word) (s : State) : (frameDecode v s).1.mask = s.mask := by
  rw [frameDecode_state]

/-- A decode keeps `BEGUN` (R157). -/
@[simp] theorem frameDecode_begun (v : Word) (s : State) : (frameDecode v s).1.begun = s.begun := by
  rw [frameDecode_state]

/-- Of the state, the reading of a decode depends on the mask alone (R153, R154). -/
theorem frameDecode_reading_congr {s t : State} (v : Word) (hmask : s.mask = t.mask) :
    (frameDecode v s).2 = (frameDecode v t).2 := by
  simp only [frameDecode_reading, frameDecode_errflags, hmask]

/-- `DECODE` ends alike in two blocks with the same mask and `BEGUN`. -/
theorem exec_decode_endAlike {s t : State} (v : Word) (hmask : s.mask = t.mask) (hbegun : s.begun = t.begun) :
    EndAlike (exec (.decode v) s) (exec (.decode v) t) :=
  ⟨_, _, rfl, rfl, by
    simp [completeReading, frameDecode_reading_congr v hmask, frameDecode_errflags, frameDecode_intraw, hmask, hbegun]⟩

/-- `READ_EXT_C` ends alike in two blocks with the same mask and the same samples to come, however each transfers
them (R129, R182). -/
theorem exec_readExtC_endAlike {s t : State} (hmask : s.mask = t.mask) (hlevels : levelAt s = levelAt t) :
    EndAlike (exec .readExtC s) (exec .readExtC t) := by
  have hacc : (readFrame s).acc = (readFrame t).acc := by simp only [readFrame_eq, hlevels]
  have hread : (readFrame s).mask = (readFrame t).mask := by simp only [readFrame_eq, hmask]
  have hbegun : (readFrame s).begun = (readFrame t).begun := by simp only [readFrame_eq]
  exact ⟨_, _, rfl, rfl, by
    simp [hacc, frameDecode_reading_congr _ hread, frameDecode_errflags, frameDecode_intraw, hread, hbegun]⟩

/-- The strap changes nothing of how an operation ends, except for the transfers it selects between (R106, R129). -/
theorem exec_endAlike_of_strap (s : State) (m n : Mode) (i : Instr) (hbitBang : i ≠ .read32BitBang)
    (hburst : i ≠ .read32Burst) : EndAlike (exec i { s with mode := m }) (exec i { s with mode := n }) := by
  cases i with
  | initialise => exact ⟨_, _, rfl, rfl, by simp⟩
  | initPins => exact ⟨_, _, rfl, rfl, by simp⟩
  | readExtC => exact exec_readExtC_endAlike rfl rfl
  | read32 => exact ⟨_, _, exec_read32 _, exec_read32 _, rfl, rfl, rfl, rfl, rfl⟩
  | read32BitBang => exact absurd rfl hbitBang
  | read32Burst => exact absurd rfl hburst
  | decode v => exact exec_decode_endAlike v rfl rfl
  | readIntC | getErr | setMask | classify | decode16 | decode32 | intC =>
    exact ⟨_, _, rfl, rfl, rfl, rfl, rfl, rfl, rfl⟩

/-- Settles O18: each transfer, and `READ32` under either strap, returns the shift of the same 32 samples; no other
operation's end depends on the strap. -/
theorem bothModesReadTheSameFrame : Obligations.BothModesReadTheSameFrame := by
  refine ⟨fun s => ?_, fun s => exec_endAlike_of_strap s .bitBang .burst⟩
  have hraw : Result.rawSample (shiftIn (levelAt s) 32 s.acc) = .rawSample (shiftIn (levelAt s) 32 0) :=
    congrArg _ (shiftIn_levelAt_acc s s.acc)
  exact ⟨_, _, _, _, _, exec_read32BitBang rfl, exec_read32Burst rfl, exec_read32 _, exec_read32 _,
    hraw, hraw, rfl, rfl, shiftIn_samplesAre s 0⟩

end Sys2Proof.Proofs.BitTransport
end

section
/-! PROOFS. The frame decoder family: the fields of a frame, `CLASSIFY` and `INT_C`
(41_framedecoder.md rules R150, R156, R162). -/

namespace Sys2Proof.Proofs.FrameDecoder

open Sys2Proof.Machine

/-! ## The fields as shifts -/

/-- A field of `n` bits from bit `k` is the shifted word cut to `n` bits. -/
theorem extractLsb'_eq_setWidth_ushiftRight {w : Nat} (x : BitVec w) (k n : Nat) :
    x.extractLsb' k n = (x >>> k).setWidth n := by
  ext i hi
  simp

/-- A field that reaches the top of the word, widened back, is the shifted word: zeros enter at the top. -/
theorem setWidth_extractLsb'_of_top {w k n : Nat} (x : BitVec w) (htop : w ≤ k + n) :
    (x.extractLsb' k n).setWidth w = x >>> k := by
  apply BitVec.eq_of_getLsbD_eq
  intro i hi
  by_cases hn : i < n
  · simp [hi, hn]
  · simp [hn, BitVec.getLsbD_of_ge x (k + i) (by omega)]

/-- Any field, widened back, is the shifted word under a mask of `n` ones. -/
theorem setWidth_extractLsb' {w : Nat} (x : BitVec w) (k n : Nat) :
    (x.extractLsb' k n).setWidth w = x >>> k &&& (BitVec.allOnes n).setWidth w := by
  apply BitVec.eq_of_getLsbD_eq
  intro i hi
  simp [hi, Bool.and_comm]

/-- Settles O32: the external field and the 13-bit count reach the top of their words, the internal field lies
inside its word and needs the mask. -/
theorem fieldsAreLogicalShifts : Obligations.FieldsAreLogicalShifts := fun v =>
  ⟨extractLsb'_eq_setWidth_ushiftRight v 18 14,
   BitVec.toNat_ushiftRight_lt v 18 (by decide),
   setWidth_extractLsb'_of_top (lowHalf v) (by decide),
   setWidth_extractLsb' v 4 12⟩

/-! ## The operations -/

/-- `INT_C` as a whole (R156): the count goes to the result ports. -/
theorem exec_intC (r : Internal) (s : State) :
    exec (.intC r) s = .next { s with res := .internal (internalCount r), done := true } := rfl

/-- Both extensions of the internal field, to 16 and to 32 bits, keep its signed value (R156). -/
@[simp] theorem internalCount_toInt (r : Internal) : (internalCount r).toInt = r.toInt := by
  rw [internalCount, extendInternal_eq, BitVec.toInt_signExtend_of_le (by decide),
    BitVec.toInt_signExtend_of_le (by decide)]

/-- Settles O31: `INT_C` returns `internalCount`, whose signed value is that of the field. -/
theorem internalConversion : Obligations.InternalConversion := fun r s =>
  ⟨internalCount r, exec_intC r s, by rw [internalCelsius, internalCount_toInt], rfl⟩

/-- Settles O25: `CLASSIFY` writes `variantOf` on the result ports, which compares the two halves. -/
theorem classifyComparesTheHalves : Obligations.ClassifyComparesTheHalves := fun _ _ => rfl

end Sys2Proof.Proofs.FrameDecoder
end

section
/-! PROOFS. The host operations family: every operation on the port of an idle block completes
(42_host_ops.md rule R180). -/

namespace Sys2Proof.Proofs.HostOps

open Sys2Proof.Machine

/-- The operation on the port of an idle block runs as a whole, with the port emptied (R180; assumption log 8). -/
theorem step_port {s : State} {c : Command} {i : Instr} (hrst : s.rst = false) (hph : s.ph = .idle)
    (hfine : s.fine = false) (hreq : s.request = some c) (hdec : decodeCommand c = .ok i) :
    step s = exec i { s with request := none } := by
  have hfetch : fetchIdle s = .run i { s with request := none } := by
    simp only [fetchIdle, hreq, accept_ok hdec]
    exact launch_whole (s := { s with request := none }) hfine i
  rw [step_idle hrst hph, hfetch]

/-- A decode leaves the host's port alone (R157). -/
@[simp] theorem frameDecode_request (v : Word) (s : State) : (frameDecode v s).1.request = s.request := by
  rw [frameDecode_state]

/-- `READ32` leaves the host's port alone (R126). -/
@[simp] theorem readFrame_request (s : State) : (readFrame s).request = s.request := by
  rw [readFrame_eq]

/-- A host operation completes in an idle block and leaves it idle. The two that use the sequencer return it to
`IDLE`; the other three never leave `IDLE` (R134, R243). -/
theorem exec_hostOp_completes {i : Instr} (hhost : i.isHostOp = true) {s : State} (hph : s.ph = .idle) :
    ∃ t, exec i s = .next t ∧ t.ph = .idle ∧ t.done = true ∧ t.request = s.request := by
  cases i with
  | initialise | readExtC => exact ⟨_, rfl, by simp⟩
  | readIntC | getErr | setMask => exact ⟨_, rfl, by simp [hph]⟩
  | read32 | read32BitBang | read32Burst | initPins | decode | classify | decode16 | decode32 | intC =>
    exact absurd hhost (by simp [Instr.isHostOp])

/-- Settles O47: the step runs the operation on the port, and each of the five host operations completes. -/
theorem everyHostOperationCompletes : Obligations.EveryHostOperationCompletes := by
  intro s c i hrst hph hfine hreq hdec hhost
  rw [step_port hrst hph hfine hreq hdec]
  exact exec_hostOp_completes hhost hph

end Sys2Proof.Proofs.HostOps
end

section
/-! PROOFS. The exceptions family: the masked-error outcome is the one error result, and it touches the result alone
(60_exceptions.md rules R203, R206 to R208). -/

namespace Sys2Proof.Proofs.Exceptions

open Sys2Proof.Machine Sys2Proof.Safety

/-! ## The comparator -/

/-- A flag word and a mask meet exactly when some flag has its mask bit set: the OR over flags of R206. -/
theorem and_ne_zero_iff_exists_bit (f m : Flags) :
    f &&& m ≠ 0 ↔ ∃ k < 3, f.getLsbD k = true ∧ m.getLsbD k = true := by
  revert f m
  decide

/-- The comparator gives the sentinel exactly when a masked flag is set (R154, R203). -/
theorem maskedReading_eq_nan_iff (mask flt : Flags) (q : Word) :
    maskedReading mask flt q = .nan ↔ flt &&& mask ≠ 0 := by
  simp [maskedReading, suppresses]

/-- Without a masked flag the comparator lets the count through (R154). -/
theorem maskedReading_of_and_eq_zero {mask flt : Flags} (hclear : flt &&& mask = 0) (q : Word) :
    maskedReading mask flt q = .quarters q := by
  simp [maskedReading, suppresses, hclear]

/-! ## What a frame says -/

/-- The flags of a frame, by its layout (R169, `flt_next`). -/
def frameFlags (v : Word) : Flags := if highHalf v = lowHalf v then flags16 v else flags32 v

/-- The internal field of a frame, by its layout (R169, `intraw_next`). -/
def frameField (v : Word) : Internal := if highHalf v = lowHalf v then 0 else int12 v

/-- The external count of a frame, by its layout (R169). -/
def frameCount (v : Word) : Word := if highHalf v = lowHalf v then count16 v else count32 v

/-- A decode records what the frame says and puts the count through the comparator (R153). -/
theorem frameDecode_eq (v : Word) (s : State) :
    frameDecode v s =
      ({ s with errflags := frameFlags v, intraw := frameField v },
        maskedReading s.mask (frameFlags v) (frameCount v)) := by
  apply Prod.ext
  · rw [frameDecode_state, frameDecode_errflags, frameDecode_intraw]
    rfl
  · rw [frameDecode_reading, frameDecode_errflags]
    rfl

/-- A frame whose halves differ records its three flag bits (R86). -/
theorem frameFlags_thirtyTwoBit {v : Word} (h : v.extractLsb' 16 16 ≠ v.extractLsb' 0 16) :
    frameFlags v = v.extractLsb' 0 3 := if_neg h

/-- A frame whose halves differ records its internal field (R85). -/
theorem frameField_thirtyTwoBit {v : Word} (h : v.extractLsb' 16 16 ≠ v.extractLsb' 0 16) :
    frameField v = v.extractLsb' 4 12 := if_neg h

/-- A frame whose halves are equal has a flag exactly when bit 2 of its device word is set (R88). -/
theorem frameFlags_sixteenBit_ne_zero_iff {v : Word} (h : v.extractLsb' 16 16 = v.extractLsb' 0 16) :
    frameFlags v ≠ 0 ↔ v.getLsbD 2 = true := by
  have hflags : frameFlags v = flags16 v := if_pos h
  have hbit : v.getLsbD 2 = ((lowHalf v).extractLsb' 2 1).getLsbD 0 := by simp [lowHalf]
  rw [hflags, hbit, flags16]
  generalize (lowHalf v).extractLsb' 2 1 = b
  revert b
  decide

/-- A frame whose halves are equal records a zero internal field (R151). -/
theorem frameField_sixteenBit {v : Word} (h : v.extractLsb' 16 16 = v.extractLsb' 0 16) :
    frameField v = 0 := if_pos h

/-- A ThirtyTwoBit frame with the flags `f`: its top half is above every flag word, so its halves differ. -/
def frameWithFlags (f : Flags) : Word := 0x8000#16 ++ f.setWidth 16

/-- Any subset of the flags occurs in some frame (R206). -/
theorem frameFlags_frameWithFlags (f : Flags) : frameFlags (frameWithFlags f) = f := by
  revert f
  decide

/-! ## The operations -/

/-- `DECODE` as a whole (R153). -/
theorem exec_decode (v : Word) (s : State) :
    exec (.decode v) s = .next
      { s with errflags := frameFlags v, intraw := frameField v,
               res := .external (maskedReading s.mask (frameFlags v) (frameCount v)), done := true } := by
  rw [exec, execDecode, frameDecode_eq]
  rfl

/-- `GET_ERR` as a whole (R184). -/
theorem exec_getErr (s : State) : exec .getErr s = .next { s with res := .flags s.errflags, done := true } := rfl

/-- `READ_INT_C` as a whole (R183). -/
theorem exec_readIntC (s : State) :
    exec .readIntC s = .next { s with res := .internal (internalCount s.intraw), done := true } := rfl

/-- The frame a read of the state `s` samples (R51, R126). -/
def nextFrame (s : State) : Word := shiftIn (levelAt s) 32 0

/-- `READ_EXT_C` as a whole (R182): one frame is read, and decoded under the mask. -/
theorem exec_readExtC (s : State) :
    exec .readExtC s = .next
      { s with begun := true, csN := 1, sck := if s.mode = .bitBang then 1 else s.sck,
               acc := nextFrame s, bitcnt := 32, sdi := s.sdi.drop 32, samples := s.samples + 32,
               errflags := frameFlags (nextFrame s), intraw := frameField (nextFrame s),
               ph := .idle, active := .none,
               res := .external (maskedReading s.mask (frameFlags (nextFrame s)) (frameCount (nextFrame s))),
               done := true } := by
  simp only [exec, execReadExtC, frameDecode_eq, readFrame_eq]
  rfl

/-! ## The obligations -/

/-- Settles O29: a decode records all flags of its frame, and the comparator is the OR over flags. -/
theorem flagsAreIndependent : Obligations.FlagsAreIndependent := by
  refine ⟨fun v s => ?_, fun f => ⟨frameWithFlags f, fun s => ?subset⟩⟩
  case subset => exact ⟨_, exec_decode _ s, frameFlags_frameWithFlags f⟩
  refine ⟨_, _, exec_decode v s, ?_, frameFlags_thirtyTwoBit, exec_getErr _, rfl⟩
  rw [Result.external.injEq, maskedReading_eq_nan_iff, and_ne_zero_iff_exists_bit]

/-- Settles O39: in the whole effect of `READ_EXT_C` the mask occurs in the result alone, inside the comparator. -/
theorem sentinelIsTheOnlyErrorResult : Obligations.SentinelIsTheOnlyErrorResult := by
  intro s m
  refine ⟨nextFrame s, _, _, _, _, shiftIn_samplesAre s 0, exec_readExtC s, exec_readExtC { s with mask := m },
    exec_readIntC s, exec_getErr s, ?sentinel, ?thirtyTwoBit, ?sixteenBit, rfl, rfl, rfl, rfl, rfl, rfl,
    ?internalResult, ?flagsResult⟩
  case sentinel => rw [Result.external.injEq, maskedReading_eq_nan_iff]
  case thirtyTwoBit => exact fun h => ⟨frameFlags_thirtyTwoBit h, frameField_thirtyTwoBit h⟩
  case sixteenBit => exact fun h => ⟨frameFlags_sixteenBit_ne_zero_iff h, frameField_sixteenBit h⟩
  case internalResult | flagsResult => exact Result.noConfusion

/-- Settles O40: the whole effect of `READ_EXT_C` mentions none of the five fields an earlier read left behind, and its
result comes from the comparator. -/
theorem readAttemptsAreIndependent : Obligations.ReadAttemptsAreIndependent := by
  intro s f r a n o
  constructor
  · rw [exec_readExtC, exec_readExtC]
    rfl
  · exact ⟨_, _, exec_readExtC s, rfl, fun hclear => ⟨_, maskedReading_of_and_eq_zero hclear _⟩⟩

end Sys2Proof.Proofs.Exceptions
end

section
/-! PROOFS. Command words: the decoder reads back what the encoder writes, and accepts only well-formed operations
(30_encoding.md rules R101 to R106; the layout of assumption log 1). -/

namespace Sys2Proof.Proofs.CommandWords

/-- A word whose stray bits are 0 is accepted. -/
@[simp] theorem noStray_zero {n : Nat} (i : Instr) : noStray (0#n) i = .ok i := if_pos rfl

/-- Settles O1: the decoder of the operation's unit reads the row from `OP`, and the operand leaves no stray bit; the
two frame rows need the layout that well-formedness gives. -/
theorem commandWordsRoundTrip : Obligations.CommandWordsRoundTrip := by
  intro i hwf
  cases i with
  | initialise | readExtC | readIntC | getErr | read32 | read32BitBang | read32Burst | initPins => rfl
  | decode v | classify v => simp [encodeCommand, decodeCommand, decodeFrameRow]
  | setMask bits => simp [encodeCommand, decodeCommand, decodeHostOp]
  | intC r => simp [encodeCommand, decodeCommand, decodeField]
  | decode16 v =>
    have hlayout : halvesEqual v = true := hwf
    simp [encodeCommand, decodeCommand, decodeFrameRow, hlayout]
  | decode32 v =>
    have hlayout : halvesEqual v = false := by simpa [Instr.wf] using hwf
    simp [encodeCommand, decodeCommand, decodeFrameRow, hlayout]

/-- The frame rows are where a constraint stands, and the decoder checks it (R81, R82; assumption log 28). -/
theorem wf_of_decodeFrameRow {op : BitVec 3} {v : Word} {i : Instr} (h : decodeFrameRow op v = .ok i) :
    i.wf = true := by
  unfold decodeFrameRow at h
  split at h
  · cases h; rfl
  · cases h; rfl
  · split_ifs at h with hlayout
    cases h
    exact hlayout
  · split_ifs at h with hlayout
    cases h
    simpa [Instr.wf] using hlayout
  · cases h

/-- Settles O2: a row of any unit but that of the frames has no constraint. -/
theorem decodedOperationsAreWellFormed : Obligations.DecodedOperationsAreWellFormed := by
  intro c i h
  unfold decodeCommand decodeHostOp decodePhaseRow decodeRead32 decodeTransfer decodeField at h
  split at h
  case h_5 => exact wf_of_decodeFrameRow h
  case h_7 => cases h
  all_goals
    split at h <;> simp only [noStray_eq_ok, reduceCtorEq] at h <;> obtain ⟨-, rfl⟩ := h <;> rfl

/-- Settles O3: each word is evaluated. -/
theorem writtenOutWordsDecode : Obligations.WrittenOutWordsDecode := by
  unfold Obligations.WrittenOutWordsDecode
  decide

/-- Settles O4: at each of the eight values of `OP` the operand `OP_ARG` leaves no stray bit. -/
theorem hostPortSelectCode : Obligations.HostPortSelectCode := by
  intro op arg
  have hunit : decodeCommand (Command.make 0 op (arg.setWidth 32)) = decodeHostOp op (arg.setWidth 32) := by
    simp [decodeCommand]
  rw [hunit]
  obtain ⟨op⟩ := op
  fin_cases op <;> simp [decodeHostOp]

end Sys2Proof.Proofs.CommandWords
end

section
/-! PROOFS. Each operation of BitTransport and of the host as one update of the state (40_bittransport.md rules R124 to
R132; 42_host_ops.md rules R181 to R185). -/

namespace Sys2Proof.Proofs.Operations

open Sys2Proof.Machine Sys2Proof.Safety Sys2Proof.Proofs.Memory Sys2Proof.Proofs.BitTransport
open Sys2Proof.Proofs.FrameDecoder Sys2Proof.Proofs.Exceptions

/-! ## Pins and the bus -/

/-- Entering `INIT_PINS` as one update (R124). -/
theorem enterInitPins_eq (s : State) :
    enterInitPins s =
      { s with ph := .initPins, begun := true, csN := 1, sck := if s.mode = .bitBang then 0 else s.sck } := by
  cases hmode : s.mode <;> simp [enterInitPins, hmode]

/-- `INIT_PINS` as a whole (R124). -/
theorem exec_initPins (s : State) :
    exec .initPins s = .next
      { s with begun := true, csN := 1, sck := if s.mode = .bitBang then 0 else s.sck,
               ph := .idle, active := .none, res := .none, done := true } := by
  rw [exec, execInitPins, enterInitPins_eq]
  rfl

/-- `INITIALIZE` is `INIT_PINS` (R181). -/
theorem exec_initialise (s : State) : exec .initialise s = exec .initPins s := rfl

/-- Settles O13: the whole effect of `INIT_PINS` is this one update. -/
theorem initPinsEstablishesThePins : Obligations.InitPinsEstablishesThePins := exec_initPins

/-- Settles O12: the second `INITIALIZE` writes the same levels over the first one's, in either mode. -/
theorem initializeEstablishesThePins : Obligations.InitializeEstablishesThePins := by
  intro s
  refine ⟨_, (exec_initialise s).trans (exec_initPins s), rfl, ?again⟩
  rw [exec_initialise, exec_initPins]
  cases s.mode <;> rfl

/-- Settles O14: `READ32` shifts 32 samples into a cleared accumulator. -/
theorem read32ReturnsTheSampledFrame : Obligations.Read32ReturnsTheSampledFrame :=
  fun s => ⟨_, shiftIn_samplesAre s 0, exec_read32 s⟩

/-- Settles O15: 32 shifts push every bit out that `ACC` held. -/
theorem bitBangTransferShiftsIn32Samples : Obligations.BitBangTransferShiftsIn32Samples := fun s =>
  ⟨fun hmode => ⟨_, shiftIn_samplesAre s s.acc, exec_read32BitBang hmode⟩,
   fun hmode => by simp [exec, execRead32BitBang, hmode]⟩

/-- Settles O16: four bytes are 32 shifts. -/
theorem burstTransferConcatenatesFourBytes : Obligations.BurstTransferConcatenatesFourBytes := fun s =>
  ⟨fun hmode => ⟨_, shiftIn_samplesAre s s.acc, exec_read32Burst hmode⟩,
   fun hmode => by simp [exec, execRead32Burst, hmode]⟩

/-! ## The accessors of the host -/

/-- Both sign extensions of the internal field are one, from 12 to 32 bits (R156). -/
theorem internalCount_eq_signExtend (r : Internal) : internalCount r = r.signExtend 32 :=
  BitVec.eq_of_toInt_eq (by rw [internalCount_toInt, BitVec.toInt_signExtend_of_le (by decide)])

/-- Settles O41: the two extensions of the stored field are one sign extension. -/
theorem readInternalConvertsTheStoredField : Obligations.ReadInternalConvertsTheStoredField := by
  intro s
  rw [exec_readIntC, internalCount_eq_signExtend]

/-- `SET_MASK` as a whole (R185). -/
theorem exec_setMask (bits : Byte) (s : State) :
    exec (.setMask bits) s = .next { s with mask := bits.extractLsb' 0 3, res := .none, done := true } := rfl

/-- Settles O42: `SET_MASK` writes the mask only, which `GET_ERR` does not look at. -/
theorem getErrReturnsTheFlags : Obligations.GetErrReturnsTheFlags :=
  ⟨exec_getErr,
   fun s bits => ⟨_, _, exec_setMask bits s, exec_getErr _, rfl⟩,
   ⟨_, exec_getErr _, rfl⟩⟩

/-- The low bits of an operand are its truncation. -/
theorem extractLsb'_low_eq_setWidth (bits : Byte) : bits.extractLsb' 0 3 = bits.setWidth 3 := by
  rw [extractLsb'_eq_setWidth_ushiftRight, BitVec.ushiftRight_zero]

/-- Truncation to three bits does not see the bits above them. -/
theorem setWidth_and_low (bits : Byte) : (bits &&& 0b111).setWidth 3 = bits.setWidth 3 := by
  rw [BitVec.setWidth_and]
  exact BitVec.and_allOnes

/-- Settles O45: the mask is the operand cut to three bits, before and after `& 0b111`. -/
theorem setMaskKeepsTheLowBits : Obligations.SetMaskKeepsTheLowBits := by
  intro s bits
  simp only [exec_setMask, extractLsb'_low_eq_setWidth, setWidth_and_low, and_self]

end Sys2Proof.Proofs.Operations
end

section
/-! PROOFS. The decode operations in the words of the spec: every field is a range of bits of the frame
(41_framedecoder.md rules R151 to R169; 42_host_ops.md rule R182). -/

namespace Sys2Proof.Proofs.Decoding

open Sys2Proof.Machine Sys2Proof.Safety Sys2Proof.Proofs.FrameDecoder Sys2Proof.Proofs.Exceptions
open Sys2Proof.Proofs.Operations

/-! ## The fields as ranges of bits -/

/-- The one flag of a SixteenBit frame is bit 2 of the frame (R88). -/
theorem flags16_eq (v : Word) : flags16 v = (v.extractLsb' 2 1).setWidth 3 := by
  simp [flags16, lowHalf]

/-- That flag in the spec's words: OpenCircuit or nothing (R88, R151). -/
theorem flags16_eq_ite (v : Word) : flags16 v = if v.getLsbD 2 then 1 else 0 := by
  have hbit : v.getLsbD 2 = (v.extractLsb' 2 1).getLsbD 0 := by simp
  rw [flags16_eq, hbit]
  generalize v.extractLsb' 2 1 = b
  revert b
  decide

/-- The count of a SixteenBit frame is bits 15:3 of the frame (R87). -/
theorem count16_eq (v : Word) : count16 v = (v.extractLsb' 3 13).setWidth 32 := by
  simp [count16, cnt13, lowHalf]

/-- The count of a ThirtyTwoBit frame is bits 31:18, sign-extended (R84, R155). -/
theorem count32_eq (v : Word) : count32 v = (v.extractLsb' 18 14).signExtend 32 := extendExternal_eq _

/-- The flags of a frame (R169, `flt_next`). -/
theorem frameFlags_eq (v : Word) :
    frameFlags v =
      if v.extractLsb' 16 16 = v.extractLsb' 0 16 then (v.extractLsb' 2 1).setWidth 3 else v.extractLsb' 0 3 := by
  rw [← flags16_eq]
  rfl

/-- A frame whose halves are equal records its one flag (R88; the spec's decision D8). -/
theorem frameFlags_sixteenBit {v : Word} (h : v.extractLsb' 16 16 = v.extractLsb' 0 16) :
    frameFlags v = (v.extractLsb' 2 1).setWidth 3 := (frameFlags_eq v).trans (if_pos h)

/-- The internal field of a frame (R169, `intraw_next`). -/
theorem frameField_eq (v : Word) :
    frameField v = if v.extractLsb' 16 16 = v.extractLsb' 0 16 then 0 else v.extractLsb' 4 12 := rfl

/-- The external count of a frame (R169). -/
theorem frameCount_eq (v : Word) :
    frameCount v =
      if v.extractLsb' 16 16 = v.extractLsb' 0 16 then (v.extractLsb' 3 13).setWidth 32
      else (v.extractLsb' 18 14).signExtend 32 := by
  rw [← count16_eq, ← count32_eq]
  rfl

/-- The comparator in the spec's words (R154). -/
theorem maskedReading_eq_ite (mask flt : Flags) (q : Word) :
    maskedReading mask flt q = if flt &&& mask ≠ 0 then .nan else .quarters q := by
  simp [maskedReading, suppresses]

/-! ## The decode operations -/

/-- `DECODE16` as a whole (R151). -/
theorem exec_decode16 (v : Word) (s : State) :
    exec (.decode16 v) s = .next
      { s with errflags := flags16 v, intraw := 0,
               res := .external (maskedReading s.mask (flags16 v) (count16 v)), done := true } := rfl

/-- `DECODE32` as a whole (R152). -/
theorem exec_decode32 (v : Word) (s : State) :
    exec (.decode32 v) s = .next
      { s with errflags := flags32 v, intraw := int12 v,
               res := .external (maskedReading s.mask (flags32 v) (count32 v)), done := true } := rfl

/-- OpenCircuit meets a mask exactly when the mask has its bit 0 (R154). -/
theorem openCircuit_and_ne_zero_iff (b : Bool) (m : Flags) :
    (if b then 1 else 0 : Flags) &&& m ≠ 0 ↔ b = true ∧ m.getLsbD 0 = true := by
  revert b m
  decide

/-- Settles O26: the one flag of the layout meets the mask in bit 0 only. -/
theorem decode16Effect : Obligations.Decode16Effect := by
  intro v s
  have hcount : (v.extractLsb' 0 16 >>> 3).setWidth 32 = count16 v := by
    rw [count16, cnt13, lowHalf, ← setWidth_extractLsb'_of_top (n := 13) _ (by decide),
      BitVec.setWidth_setWidth (by decide)]
  simp only [exec_decode16, maskedReading_eq_ite, flags16_eq_ite, openCircuit_and_ne_zero_iff, hcount]

/-- Settles O27: the OR form of the sign-extender is sign extension. -/
theorem decode32Effect : Obligations.Decode32Effect := by
  intro v s
  rw [exec_decode32, maskedReading_eq_ite, count32_eq]
  rfl

/-- Settles O28: what a decode makes of its frame, written as ranges of bits. -/
theorem decodeIsTheCombinationalView : Obligations.DecodeIsTheCombinationalView := by
  intro v s
  simp only [exec_decode, maskedReading_eq_ite, frameFlags_eq, frameField_eq, frameCount_eq]

/-- Settles O30: in the whole effect of `DECODE` the mask occurs in the comparator only, where mask 0 meets no flag. -/
theorem maskingTouchesTheResultOnly : Obligations.MaskingTouchesTheResultOnly := by
  intro v s m
  refine ⟨_, _, exec_decode v s, exec_decode v { s with mask := m }, rfl, rfl, ?unmasked⟩
  rintro rfl
  exact ⟨_, congrArg _ (maskedReading_of_and_eq_zero BitVec.and_zero _)⟩

/-! ## Reads from end to end -/

/-- Settles O38: the frame is the next 32 samples, and `READ_EXT_C` decodes it. -/
theorem readExternalFromPinsToResult : Obligations.ReadExternalFromPinsToResult := by
  intro s
  refine ⟨nextFrame s, shiftIn_samplesAre s 0, ?_⟩
  simp only [exec_readExtC, maskedReading_eq_ite, frameFlags_eq, frameField_eq, frameCount_eq]

/-- The field that a SixteenBit frame records stands for 0 degrees. -/
theorem internalCount_zero : internalCount 0 = 0 := by decide

/-- Settles O44: `READ_EXT_C` records the flags and the internal field of its frame whatever the mask says. -/
theorem accessorsReflectTheLatestRead : Obligations.AccessorsReflectTheLatestRead := by
  intro s
  refine ⟨nextFrame s, _, _, _, shiftIn_samplesAre s 0, exec_readExtC s, exec_getErr _, exec_readIntC _,
    fun h => ⟨?flags32, ?field32⟩, fun h => ⟨?flags16, ?field16⟩⟩
  case flags32 => exact congrArg Result.flags (frameFlags_thirtyTwoBit h)
  case field32 => rw [← internalCount_eq_signExtend, ← frameField_thirtyTwoBit h]
  case flags16 => exact congrArg Result.flags (frameFlags_sixteenBit h)
  case field16 =>
    rw [← internalCount_zero, ← frameField_sixteenBit h]

/-- Settles O46: the mask that `SET_MASK` writes is the one the comparator of the read uses. -/
theorem maskIsVisibleToTheNextRead : Obligations.MaskIsVisibleToTheNextRead := by
  intro s bits
  refine ⟨_, _, exec_setMask bits s, exec_readExtC _, ?_⟩
  rw [Result.external.injEq, maskedReading_eq_nan_iff, extractLsb'_low_eq_setWidth]

/-! ## The result ports -/

/-- `RES_NAN` and `RES_Q` beside a reading of the comparator (R34, R154; decision D11). -/
theorem ports_of_maskedReading {s : State} {mask flt : Flags} {q : Word}
    (hres : s.res = .external (maskedReading mask flt q)) :
    (flt &&& mask ≠ 0 → resNan s = some 1 ∧ resQ s = none) ∧
      (flt &&& mask = 0 → resNan s = some 0 ∧ resQ s = some q) := by
  constructor <;> intro h
  · simp [resNan, resQ, hres, (maskedReading_eq_nan_iff mask flt q).2 h]
  · simp [resNan, resQ, hres, maskedReading_of_and_eq_zero h]

/-- Settles O43: the comparator gives `RES_NAN` and `RES_Q` after `DECODE`; the accessors never show the sentinel. -/
theorem resultPortsCarryTheResult : Obligations.ResultPortsCarryTheResult := by
  intro v s
  refine ⟨_, _, _, exec_decode v s, exec_readIntC s, exec_getErr s, ?_⟩
  rw [← frameCount_eq, ← internalCount_eq_signExtend]
  obtain ⟨hmasked, hclear⟩ := ports_of_maskedReading (s := { s with
    res := .external (maskedReading s.mask (frameFlags v) (frameCount v)) }) rfl
  exact ⟨hmasked, hclear, rfl, rfl, rfl, rfl⟩

end Sys2Proof.Proofs.Decoding
end

section
/-! PROOFS. The ranges of the results: their bounds, and a frame for each value inside them (41_framedecoder.md
rules R155, R164). -/

namespace Sys2Proof.Proofs.Ranges

open Sys2Proof.Machine Sys2Proof.Proofs.FrameDecoder Sys2Proof.Proofs.Exceptions
open Sys2Proof.Proofs.Operations Sys2Proof.Proofs.Decoding

/-! ## Bounds -/

/-- The sign extension of the external field keeps its signed value (R155). -/
theorem extendExternal_toInt (f : BitVec 14) : (extendExternal f).toInt = f.toInt := by
  rw [extendExternal_eq, BitVec.toInt_signExtend_of_le (by decide)]

/-- Settles O33: 14 bits read as two's complement. -/
theorem externalSignExtender : Obligations.ExternalSignExtender := by
  refine fun f => ⟨extendExternal_eq f, ?_⟩
  rw [extendExternal_toInt, BitVec.toInt_eq_toNat_cond]
  split_ifs <;> omega

/-- The SixteenBit count is that of its 13 bits, unsigned (R87). -/
theorem count16_toInt (v : Word) : (count16 v).toInt = (cnt13 (lowHalf v)).toNat := by
  have hlt := (cnt13 (lowHalf v)).isLt
  rw [count16, BitVec.toInt_eq_toNat_cond, BitVec.toNat_setWidth_of_le (by decide), if_pos (by omega)]

/-- The ThirtyTwoBit count is that of its 14 bits, signed (R84). -/
theorem count32_toInt (v : Word) : (count32 v).toInt = (ext14 v).toInt := extendExternal_toInt _

/-- Both layouts keep the external count in 14 signed bits (R164). -/
theorem frameCount_bounds (v : Word) : -8192 ≤ (frameCount v).toInt ∧ (frameCount v).toInt ≤ 8191 := by
  unfold frameCount
  split_ifs
  · have := (cnt13 (lowHalf v)).isLt
    rw [count16_toInt]
    omega
  · have hlow := BitVec.le_toInt (ext14 v)
    have hhigh := BitVec.toInt_lt (x := ext14 v)
    rw [count32_toInt]
    norm_num at hlow hhigh
    omega

/-- The SixteenBit layout has no negative count (R87, R164). -/
theorem frameCount_nonneg {v : Word} (h : v.extractLsb' 16 16 = v.extractLsb' 0 16) : 0 ≤ (frameCount v).toInt := by
  have hcount : frameCount v = count16 v := if_pos h
  rw [hcount, count16_toInt]
  exact Int.natCast_nonneg _

/-- A reading that is a number is the number of its count (R165). -/
theorem celsius_maskedReading {mask flt : Flags} {q : Word} {x : ℚ}
    (h : (maskedReading mask flt q).celsius = some x) : x = q.toInt / 4 := by
  rw [maskedReading_eq_ite] at h
  split_ifs at h <;> simp_all [Reading.celsius]

/-- The internal field is a number of 12 signed bits (R85). -/
theorem internal_toInt_bounds (r : Internal) : -2048 ≤ r.toInt ∧ r.toInt ≤ 2047 := by
  have hlow := BitVec.le_toInt r
  have hhigh := BitVec.toInt_lt (x := r)
  norm_num at hlow hhigh
  omega

/-- So the internal result keeps its range (R164). -/
theorem internalCelsius_bounds (r : Internal) :
    -128 ≤ internalCelsius (internalCount r) ∧ internalCelsius (internalCount r) ≤ 127.9375 := by
  have hbounds := internal_toInt_bounds r
  have hlow : (-2048 : ℚ) ≤ r.toInt := by exact_mod_cast hbounds.1
  have hhigh : (r.toInt : ℚ) ≤ 2047 := by exact_mod_cast hbounds.2
  rw [internalCelsius, internalCount_toInt]
  constructor <;> linarith

/-! ## Frames for every value -/

/-- A frame that a decode lets through under every mask returns its count (R154, R165). -/
theorem exec_decode_celsius {v : Word} {n : ℤ} (hflags : frameFlags v = 0) (hcount : (frameCount v).toInt = n)
    (s : State) :
    ∃ t r, exec (.decode v) s = .next t ∧ t.res = .external r ∧ r.celsius = some (n / 4 : ℚ) := by
  refine ⟨_, _, exec_decode v s, rfl, ?_⟩
  have hclear : frameFlags v &&& s.mask = 0 := by simp [hflags]
  rw [maskedReading_of_and_eq_zero hclear, Reading.celsius, hcount]

/-- Bits 16 and 0 stand at the same place of the two halves. -/
theorem halves_ne_of_bits {v : Word} (h16 : v.getLsbD 16 = true) (h0 : v.getLsbD 0 = false) :
    highHalf v ≠ lowHalf v := by
  intro h
  have hbit := congrArg (·.getLsbD 0) h
  simp [highHalf, lowHalf, -BitVec.getLsbD_eq_getElem, h16, h0] at hbit

/-- A ThirtyTwoBit frame without flags whose external field is `x`; bit 16 makes its halves differ (R81). -/
def externalFrame (x : BitVec 14) : Word := x ++ 0x10000#18

theorem externalFrame_halves (x : BitVec 14) : highHalf (externalFrame x) ≠ lowHalf (externalFrame x) :=
  halves_ne_of_bits (BitVec.getLsbD_append (x := x)) (BitVec.getLsbD_append (x := x))

theorem frameFlags_externalFrame (x : BitVec 14) : frameFlags (externalFrame x) = 0 :=
  (frameFlags_thirtyTwoBit (externalFrame_halves x)).trans
    (BitVec.extractLsb'_append_eq_of_add_le (xhi := x) (by decide))

theorem frameCount_externalFrame (x : BitVec 14) : (frameCount (externalFrame x)).toInt = x.toInt := by
  have hcount : frameCount (externalFrame x) = count32 (externalFrame x) := if_neg (externalFrame_halves x)
  have hfield : ext14 (externalFrame x) = x := BitVec.extractLsb'_append_eq_left
  rw [hcount, count32_toInt, hfield]

/-- The device word of a SixteenBit frame with the count `x` and no flag (R82). -/
def countWord (x : BitVec 13) : Half := x ++ 0#3

/-- A SixteenBit frame: a device word, twice (R82). -/
def repeatedFrame (w : Half) : Word := w ++ w

theorem highHalf_repeatedFrame (w : Half) : highHalf (repeatedFrame w) = w := BitVec.extractLsb'_append_eq_left

theorem lowHalf_repeatedFrame (w : Half) : lowHalf (repeatedFrame w) = w := BitVec.extractLsb'_append_eq_right

theorem repeatedFrame_halves (w : Half) : highHalf (repeatedFrame w) = lowHalf (repeatedFrame w) := by
  rw [highHalf_repeatedFrame, lowHalf_repeatedFrame]

theorem frameFlags_repeatedFrame_countWord (x : BitVec 13) : frameFlags (repeatedFrame (countWord x)) = 0 := by
  have hflag : (countWord x).extractLsb' 2 1 = 0 := BitVec.extractLsb'_append_eq_of_add_le (by decide)
  rw [frameFlags, if_pos (repeatedFrame_halves _), flags16, lowHalf_repeatedFrame, hflag]
  rfl

theorem frameCount_repeatedFrame_countWord (x : BitVec 13) :
    (frameCount (repeatedFrame (countWord x))).toInt = x.toNat := by
  have hfield : cnt13 (countWord x) = x := BitVec.extractLsb'_append_eq_left
  rw [frameCount, if_pos (repeatedFrame_halves _), count16_toInt, lowHalf_repeatedFrame, hfield]

/-- A ThirtyTwoBit frame whose internal field is `r`; bit 16 makes its halves differ (R81). -/
def internalFrame (r : Internal) : Word := 1#16 ++ (r ++ 0#4 : Half)

theorem internalFrame_halves (r : Internal) : highHalf (internalFrame r) ≠ lowHalf (internalFrame r) :=
  halves_ne_of_bits (BitVec.getLsbD_append (x := 1#16))
    ((BitVec.getLsbD_append (x := 1#16)).trans (BitVec.getLsbD_append (x := r)))

theorem frameField_internalFrame (r : Internal) : frameField (internalFrame r) = r := by
  have hfield : int12 (internalFrame r) = (r ++ 0#4 : Half).extractLsb' 4 12 :=
    BitVec.extractLsb'_append_eq_of_add_le (xhi := 1#16) (by decide)
  rw [frameField, if_neg (internalFrame_halves r), hfield]
  exact BitVec.extractLsb'_append_eq_left

/-! ## The obligations -/

/-- Settles O34: the bounds are those of the count, and a frame without flags returns it under every mask. -/
theorem externalRangeIsAttained : Obligations.ExternalRangeIsAttained := by
  refine ⟨?bounds, fun n hlow hhigh => ?thirtyTwoBit, fun n hlow hhigh => ?sixteenBit⟩
  case bounds =>
    intro v s t r hexec hres x hx
    rw [exec_decode] at hexec
    cases hexec
    cases hres
    obtain rfl := celsius_maskedReading hx
    have hbounds := frameCount_bounds v
    have hlow : (-8192 : ℚ) ≤ (frameCount v).toInt := by exact_mod_cast hbounds.1
    have hhigh : ((frameCount v).toInt : ℚ) ≤ 8191 := by exact_mod_cast hbounds.2
    refine ⟨by linarith, by linarith, fun h => ?_⟩
    have hnonneg : (0 : ℚ) ≤ (frameCount v).toInt := by exact_mod_cast frameCount_nonneg h
    linarith
  case thirtyTwoBit =>
    have hcount : (BitVec.ofInt 14 n).toInt = n := BitVec.toInt_ofInt_eq_self (by decide) hlow (by omega)
    exact ⟨_, externalFrame_halves _,
      exec_decode_celsius (frameFlags_externalFrame _) ((frameCount_externalFrame _).trans hcount)⟩
  case sixteenBit =>
    have hcount : ((BitVec.ofNat 13 n.toNat).toNat : ℤ) = n := by
      rw [BitVec.toNat_ofNat, Nat.mod_eq_of_lt (by omega)]
      omega
    exact ⟨_, repeatedFrame_halves _,
      exec_decode_celsius (frameFlags_repeatedFrame_countWord _)
        ((frameCount_repeatedFrame_countWord _).trans hcount)⟩

/-- Settles O56: `READ_INT_C` returns the stored field, and a decode stores the field of its frame whatever the mask. -/
theorem internalRangeIsAttained : Obligations.InternalRangeIsAttained := by
  refine ⟨fun s => ⟨_, _, exec_readIntC s, rfl, internalCelsius_bounds s.intraw⟩, fun n hlow hhigh => ?attained⟩
  have hfield : (BitVec.ofInt 12 n).toInt = n := BitVec.toInt_ofInt_eq_self (by decide) hlow (by omega)
  refine ⟨internalFrame (.ofInt 12 n), fun s => ⟨_, _, _, exec_decode _ s, exec_readIntC _, rfl, ?_⟩⟩
  rw [internalCelsius, internalCount_toInt, frameField_internalFrame, hfield]

end Sys2Proof.Proofs.Ranges
end

section
/-! PROOFS. The float of a result: the pattern denotes the very number of the count, and no number for the sentinel
(41_framedecoder.md rules R165 to R168; the reading of a pattern is that of assumption log 27). -/

namespace Sys2Proof.Proofs.Floats

open Sys2Proof.Machine Sys2Proof.Proofs.FrameDecoder Sys2Proof.Proofs.Exceptions Sys2Proof.Proofs.Ranges

/-! ## A pattern and its fields -/

/-- The pattern with the sign, the exponent field and the fraction field given. -/
def pattern (sign e f : Nat) : Word := BitVec.ofNat 32 (sign * 2 ^ 31 + e * 2 ^ 23 + f)

section Fields

variable {sign e f : Nat} (hsign : sign < 2) (he : e < 2 ^ 8) (hf : f < 2 ^ 23)
include hsign he hf

theorem pattern_toNat : (pattern sign e f).toNat = sign * 2 ^ 31 + e * 2 ^ 23 + f := by
  rw [pattern, BitVec.toNat_ofNat, Nat.mod_eq_of_lt (by omega)]

theorem pattern_exponent : ((pattern sign e f).extractLsb' 23 8).toNat = e := by
  rw [BitVec.extractLsb'_toNat, pattern_toNat hsign he hf, Nat.shiftRight_eq_div_pow]
  omega

theorem pattern_fraction : ((pattern sign e f).extractLsb' 0 23).toNat = f := by
  rw [BitVec.extractLsb'_toNat, pattern_toNat hsign he hf, Nat.shiftRight_zero]
  omega

theorem pattern_sign : (pattern sign e f).getLsbD 31 = decide (sign = 1) := by
  rw [BitVec.getLsbD, pattern_toNat hsign he hf, Nat.testBit_eq_decide_div_mod_eq]
  exact decide_eq_decide.2 (by omega)

/-- A pattern with an exponent field between the two extremes denotes a normal number (IEEE 754). -/
theorem binary32Value_normal (hnorm : 0 < e) (hfin : e < 255) :
    binary32Value (pattern sign e f) =
      some ((if sign = 1 then -1 else 1) * (2 ^ 23 + f) * 2 ^ e / 2 ^ 150 : ℚ) := by
  simp only [binary32Value, pattern_exponent hsign he hf, pattern_fraction hsign he hf, pattern_sign hsign he hf,
    decide_eq_true_eq, if_neg hnorm.ne', if_neg hfin.ne]

end Fields

/-! ## The sentinel -/

theorem nanFraction_pos (draw : Nat) : 0 < Config.nanFraction draw := Nat.succ_pos _

theorem nanFraction_lt (draw : Nat) : Config.nanFraction draw < 2 ^ 23 := by
  have := Nat.mod_lt (Config.nanChoice draw) (show 8388607 > 0 by decide)
  rw [Config.nanFraction]
  omega

/-- The exponent field of a sentinel is all ones, under every draw of its sign and fraction (R167). -/
theorem nanBits_exponent (draw : Nat) : (Config.nanBits draw).extractLsb' 23 8 = 0xFF#8 :=
  BitVec.eq_of_toNat_eq
    (pattern_exponent (Config.nanSign draw).isLt (by decide) (nanFraction_lt draw))

/-- Exponent all ones is no number. -/
theorem binary32Value_nanBits (draw : Nat) : binary32Value (Config.nanBits draw) = none := by
  simp [binary32Value, nanBits_exponent]

/-- Settles O37: the three fields of the pattern do not overlap. -/
theorem sentinelPatternIsNaN : Obligations.SentinelPatternIsNaN := by
  refine fun draw => ⟨nanBits_exponent draw, fun hzero => ?_, binary32Value_nanBits draw⟩
  have hfraction : ((Config.nanBits draw).extractLsb' 0 23).toNat = Config.nanFraction draw :=
    pattern_fraction (Config.nanSign draw).isLt (by decide) (nanFraction_lt draw)
  have hpos := nanFraction_pos draw
  rw [← hfraction, show (Config.nanBits draw).extractLsb' 0 23 = 0#23 from hzero] at hpos
  exact absurd hpos (by decide)

/-! ## Numbers -/

/-- The pattern of a count that is not 0: its leading bit goes to the exponent and the rest to the fraction. -/
theorem binary32_of_ne_zero {q : ℤ} (hq : q ≠ 0) (k : Nat) :
    binary32 q k =
      pattern (if q < 0 then 1 else 0) (q.natAbs.log2 + 127 - k)
        ((q.natAbs - 2 ^ q.natAbs.log2) * 2 ^ (23 - q.natAbs.log2)) := by
  simp [binary32, pattern, hq]

/-- The leading bit and the fraction of a count of at most 24 bits, put together, are the count, scaled. -/
theorem fraction_add_leading {n p : Nat} (hp : p ≤ 23) (hn : 2 ^ p ≤ n) :
    2 ^ 23 + (n - 2 ^ p) * 2 ^ (23 - p) = n * 2 ^ (23 - p) := by
  have h23 : 2 ^ 23 = 2 ^ p * 2 ^ (23 - p) := by rw [← pow_add, Nat.add_sub_cancel' hp]
  rw [h23, ← add_mul, Nat.add_sub_cancel' hn]

/-- What the count has below its leading bit fits the fraction. -/
theorem fraction_lt {n p : Nat} (hp : p ≤ 23) (hn : n < 2 ^ (p + 1)) :
    (n - 2 ^ p) * 2 ^ (23 - p) < 2 ^ 23 := by
  have h23 : 2 ^ 23 = 2 ^ p * 2 ^ (23 - p) := by rw [← pow_add, Nat.add_sub_cancel' hp]
  rw [h23]
  exact Nat.mul_lt_mul_of_pos_right (by omega) (by positivity)

/-- The sign and the magnitude of a count are the count. -/
theorem sign_mul_natAbs (q : ℤ) : (if q < 0 then -1 else 1 : ℚ) * q.natAbs = q := by
  rw [Nat.cast_natAbs, Int.cast_abs]
  split_ifs with h
  · rw [abs_of_neg (by exact_mod_cast h), neg_one_mul, neg_neg]
  · rw [abs_of_nonneg (by exact_mod_cast not_lt.1 h), one_mul]

/-- A count of at most 24 bits that is not 0 is normal at every scale down to `2 ^ -126`. -/
theorem binary32Value_binary32_of_ne_zero {q : ℤ} {k : Nat} (h0 : q ≠ 0) (hq : q.natAbs < 2 ^ 24) (hk : k ≤ 126) :
    binary32Value (binary32 q k) = some (q / 2 ^ k : ℚ) := by
  have hn : q.natAbs ≠ 0 := Int.natAbs_ne_zero.2 h0
  have hlow : 2 ^ q.natAbs.log2 ≤ q.natAbs := Nat.log2_self_le hn
  have hhigh : q.natAbs < 2 ^ (q.natAbs.log2 + 1) := Nat.lt_log2_self
  have hp : q.natAbs.log2 ≤ 23 := Nat.le_of_lt_succ ((Nat.log2_lt hn).2 hq)
  rw [binary32_of_ne_zero h0]
  generalize q.natAbs.log2 = p at hlow hhigh hp ⊢
  have hsign : (if q < 0 then 1 else 0) < 2 := by split_ifs <;> decide
  rw [binary32Value_normal hsign (by omega) (fraction_lt hp hhigh) (by omega) (by omega)]
  have hfrac : (2 ^ 23 + ((q.natAbs - 2 ^ p) * 2 ^ (23 - p) : ℕ) : ℚ) = q.natAbs * 2 ^ (23 - p) := by
    exact_mod_cast fraction_add_leading hp hlow
  have hexp : (2 : ℚ) ^ (23 - p) * 2 ^ (p + 127 - k) * 2 ^ k = 2 ^ 150 := by
    rw [← pow_add, ← pow_add]
    congr 1
    omega
  have hif : ((if (if q < 0 then 1 else 0) = 1 then -1 else 1 : ℚ)) = if q < 0 then -1 else 1 := by
    split_ifs <;> simp_all
  rw [hif, hfrac, ← sign_mul_natAbs q, ← hexp]
  field_simp

/-- Settles O35: 24 bits of count fit the fraction with its leading 1, and the exponent carries the scale. -/
theorem floatResultsAreExact : Obligations.FloatResultsAreExact := by
  intro q k hq hk
  by_cases h0 : q = 0
  · subst h0
    simp [binary32, binary32Value]
  · exact binary32Value_binary32_of_ne_zero h0 hq hk

/-- A reading of the comparator with a count of at most 24 bits is exact as a float, and the sentinel is no number. -/
theorem binary32Value_float_maskedReading {q : Word} (mask flt : Flags) (draw : Nat) (hq : q.toInt.natAbs < 2 ^ 24) :
    binary32Value ((maskedReading mask flt q).float draw) = (maskedReading mask flt q).celsius := by
  unfold maskedReading
  split_ifs
  · exact binary32Value_nanBits draw
  · rw [Reading.float, floatResultsAreExact _ _ hq (by decide), Reading.celsius]
    norm_num

/-- Settles O36: external counts have 14 bits and internal ones 12. -/
theorem returnedTemperaturesAreExactFloats : Obligations.ReturnedTemperaturesAreExactFloats := by
  refine ⟨fun v s => ⟨_, _, exec_decode v s, rfl, fun draw => ?external⟩,
    fun s => ⟨_, _, exec_readIntC s, rfl, ?internal, internalCelsius_bounds s.intraw⟩⟩
  case external =>
    have hbounds := frameCount_bounds v
    exact binary32Value_float_maskedReading _ _ draw (by omega)
  case internal =>
    have hbounds := internal_toInt_bounds s.intraw
    rw [internalFloat, floatResultsAreExact _ _ (by rw [internalCount_toInt]; omega) (by decide), internalCelsius]
    norm_num

end Sys2Proof.Proofs.Floats
end

section
/-! PROOFS. The transitions of the sequencer (R134), one equation for each phase, and which step a state takes
(42_host_ops.md rule R180; 70_reset_and_hazards.md rules R230, R236). -/

namespace Sys2Proof.Proofs.Steps

open Sys2Proof.Machine Sys2Proof.Safety Sys2Proof.Proofs.CommandWords Sys2Proof.Proofs.HostOps
open Sys2Proof.Proofs.Exceptions Sys2Proof.Proofs.Operations

/-! ## The transitions of a busy block -/

/-- The operation in progress is a read (R134). -/
def IsRead (a : Activity) : Prop := a = .readExtC ∨ a = .read32

section Transitions

variable {s : State}

theorem tick_idle (h : s.ph = .idle) : tick s = s := by simp [tick, h]

theorem tick_initPins_of_read (h : s.ph = .initPins) (hread : IsRead s.active) : tick s = enterSelect s := by
  rcases hread with ha | ha <;> simp [tick, h, ha]

theorem tick_initPins_of_not_read (h : s.ph = .initPins) (hread : ¬ IsRead s.active) :
    tick s = completeSequenced .none s := by
  cases ha : s.active <;> simp_all [tick, IsRead]

theorem tick_select (h : s.ph = .select) : tick s = enterSettle s := by simp [tick, h]

theorem tick_settle_bitBang (h : s.ph = .settle) (hmode : s.mode = .bitBang) : tick s = enterBitLow s := by
  simp [tick, h, hmode]

theorem tick_settle_burst (h : s.ph = .settle) (hmode : s.mode = .burst) : tick s = enterBurstByte s := by
  simp [tick, h, hmode]

theorem tick_bitLow (h : s.ph = .bitLow) : tick s = enterBitSample s := by simp [tick, h]

theorem tick_bitSample_bitBang (h : s.ph = .bitSample) (hmode : s.mode = .bitBang) : tick s = enterBitHigh s := by
  simp [tick, h, hmode]

theorem tick_bitSample_burst (h : s.ph = .bitSample) (hmode : s.mode = .burst) (hcnt : s.bitcnt < 32) :
    tick s = enterBurstByte s := by
  simp only [tick, h, hmode, if_pos hcnt]

theorem tick_bitSample_burst_last (h : s.ph = .bitSample) (hmode : s.mode = .burst) (hcnt : ¬ s.bitcnt < 32) :
    tick s = enterDeselect s := by
  simp only [tick, h, hmode, if_neg hcnt]

theorem tick_bitHigh (h : s.ph = .bitHigh) (hcnt : s.bitcnt < 32) : tick s = enterBitLow s := by
  simp only [tick, h, if_pos hcnt]

theorem tick_bitHigh_last (h : s.ph = .bitHigh) (hcnt : ¬ s.bitcnt < 32) : tick s = enterDeselect s := by
  simp only [tick, h, if_neg hcnt]

theorem tick_deselect (h : s.ph = .deselect) : tick s = finishRead s := by simp [tick, h]

end Transitions

/-- `READ_EXT_C` ends with the decode of its frame (R134). -/
theorem finishRead_readExtC {s : State} (h : s.active = .readExtC) :
    finishRead s =
      { s with errflags := frameFlags s.acc, intraw := frameField s.acc, ph := .idle, active := .none,
               res := .external (maskedReading s.mask (frameFlags s.acc) (frameCount s.acc)), done := true } := by
  simp only [finishRead, h, frameDecode_eq]
  rfl

/-- `READ32` ends with its frame as the result (R134). -/
theorem finishRead_of_ne {s : State} (h : s.active ≠ .readExtC) :
    finishRead s = completeSequenced (.rawSample s.acc) s := by
  cases ha : s.active <;> simp_all [finishRead]

/-- The end of a read writes the flags, the internal field and the result, and ends the operation. -/
theorem finishRead_eq (s : State) :
    finishRead s =
      { s with errflags := (finishRead s).errflags, intraw := (finishRead s).intraw, res := (finishRead s).res,
               ph := .idle, active := .none, done := true } := by
  by_cases h : s.active = .readExtC
  · rw [finishRead_readExtC h]
  · rw [finishRead_of_ne h]
    rfl

/-- The transitions of a busy block (R134): what each phase is left for, and under which condition. -/
inductive Transition (s : State) : State → Prop
  | select (hph : s.ph = .initPins) (hread : IsRead s.active) : Transition s (enterSelect s)
  | endPins (hph : s.ph = .initPins) (hread : ¬ IsRead s.active) : Transition s (completeSequenced .none s)
  | settle (hph : s.ph = .select) : Transition s (enterSettle s)
  | firstBit (hph : s.ph = .settle) (hmode : s.mode = .bitBang) : Transition s (enterBitLow s)
  | firstByte (hph : s.ph = .settle) (hmode : s.mode = .burst) : Transition s (enterBurstByte s)
  | sample (hph : s.ph = .bitLow) : Transition s (enterBitSample s)
  | clockHigh (hph : s.ph = .bitSample) (hmode : s.mode = .bitBang) : Transition s (enterBitHigh s)
  | nextByte (hph : s.ph = .bitSample) (hmode : s.mode = .burst) (hcnt : s.bitcnt < 32) :
      Transition s (enterBurstByte s)
  | lastByte (hph : s.ph = .bitSample) (hmode : s.mode = .burst) (hcnt : ¬ s.bitcnt < 32) :
      Transition s (enterDeselect s)
  | nextBit (hph : s.ph = .bitHigh) (hcnt : s.bitcnt < 32) : Transition s (enterBitLow s)
  | lastBit (hph : s.ph = .bitHigh) (hcnt : ¬ s.bitcnt < 32) : Transition s (enterDeselect s)
  | endRead (hph : s.ph = .deselect) : Transition s (finishRead s)

/-- A busy block makes one of these transitions. -/
theorem transition_tick {s : State} (hbusy : s.ph ≠ .idle) : Transition s (tick s) := by
  cases hph : s.ph with
  | idle => exact absurd hph hbusy
  | initPins =>
    by_cases hread : IsRead s.active
    · exact tick_initPins_of_read hph hread ▸ .select hph hread
    · exact tick_initPins_of_not_read hph hread ▸ .endPins hph hread
  | select => exact tick_select hph ▸ .settle hph
  | settle =>
    cases hmode : s.mode with
    | bitBang => exact tick_settle_bitBang hph hmode ▸ .firstBit hph hmode
    | burst => exact tick_settle_burst hph hmode ▸ .firstByte hph hmode
  | bitLow => exact tick_bitLow hph ▸ .sample hph
  | bitSample =>
    cases hmode : s.mode with
    | bitBang => exact tick_bitSample_bitBang hph hmode ▸ .clockHigh hph hmode
    | burst =>
      by_cases hcnt : s.bitcnt < 32
      · exact tick_bitSample_burst hph hmode hcnt ▸ .nextByte hph hmode hcnt
      · exact tick_bitSample_burst_last hph hmode hcnt ▸ .lastByte hph hmode hcnt
  | bitHigh =>
    by_cases hcnt : s.bitcnt < 32
    · exact tick_bitHigh hph hcnt ▸ .nextBit hph hcnt
    · exact tick_bitHigh_last hph hcnt ▸ .lastBit hph hcnt
  | deselect => exact tick_deselect hph ▸ .endRead hph

/-- A transition keeps the strap, `BEGUN`, the reset input, the port and the host's list. -/
theorem Transition.keeps {s t : State} (h : Transition s t) :
    t.mode = s.mode ∧ t.begun = s.begun ∧ t.rst = s.rst ∧ t.request = s.request ∧ t.queue = s.queue := by
  cases h with
  | endRead hph =>
    rw [finishRead_eq]
    exact ⟨rfl, rfl, rfl, rfl, rfl⟩
  | select | endPins | settle | firstBit | firstByte | sample | clockHigh | nextByte | lastByte | nextBit | lastBit =>
    simp

/-- Settles O19: the phase each transition enters. -/
theorem sequencerTransitions : Obligations.SequencerTransitions := by
  intro s hrst hreq hph
  have h32 : ¬ (32 : BitVec 6) < 32 := by decide
  refine ⟨tick s, step_busy hrst hreq hph, ?initPins, ?select, ?settle, ?bitLow, ?bitSample, ?byte, ?lastByte,
    ?bitHigh, ?lastBit, ?deselect⟩
  case initPins =>
    intro h
    by_cases hread : s.active = .readExtC ∨ s.active = .read32
    · simp only [tick_initPins_of_read h hread, enterSelect_fields, if_pos hread]
    · simp only [tick_initPins_of_not_read h hread, completeSequenced_fields, if_neg hread]
  case select => intro h; simp [tick_select h]
  case settle =>
    intro h
    cases hmode : s.mode with
    | bitBang => simp [tick_settle_bitBang h hmode]
    | burst => simp [tick_settle_burst h hmode]
  case bitLow => intro h; simp [tick_bitLow h]
  case bitSample => intro h hmode; simp [tick_bitSample_bitBang h hmode]
  case byte => intro h hmode hcnt; simp [tick_bitSample_burst h hmode hcnt]
  case lastByte => intro h hmode hcnt; simp [tick_bitSample_burst_last h hmode (hcnt ▸ h32)]
  case bitHigh => intro h hcnt; simp [tick_bitHigh h hcnt]
  case lastBit => intro h hcnt; simp [tick_bitHigh_last h (hcnt ▸ h32)]
  case deselect =>
    intro h
    rw [tick_deselect h, finishRead_eq]
    exact ⟨rfl, rfl⟩

/-! ## Which step a state takes -/

/-- The command `c` is the next one the host presents to the idle block `s`, on its port or else from the host's list,
and `u` is `s` with the command taken (R180; assumption log 8). -/
def Taken (s : State) (c : Command) (u : State) : Prop :=
  (s.request = some c ∧ u = { s with request := none }) ∨
    (s.request = none ∧ ∃ cs, s.queue = c :: cs ∧ u = { s with queue := cs })

/-- Taking a command empties the port, may shorten the list, and changes nothing else. -/
theorem Taken.eq {s u : State} {c : Command} (h : Taken s c u) : u = { s with request := none, queue := u.queue } := by
  rcases h with ⟨-, rfl⟩ | ⟨hreq, cs, -, rfl⟩
  · rfl
  · rw [← hreq]

/-- What a step does with what the fetch finds. -/
def act : Fetched → Host.Outcome State Fault Refusal
  | .run i t => exec i t
  | .advance t => .next t
  | .refuse r => .refused r

/-- A step fetches and acts. -/
theorem step_eq_act (s : State) : step s = act (fetch s) := by
  unfold step
  cases fetch s <;> rfl

/-- An idle block that is not being reset takes the next command. -/
theorem step_taken {s u : State} {c : Command} (hrst : s.rst = false) (hph : s.ph = .idle) (htaken : Taken s c u) :
    step s = act (accept c u) := by
  have hfetch : fetch s = fetchIdle s := by simp [fetch, hrst, hph]
  rw [step_eq_act, hfetch]
  rcases htaken with ⟨hreq, rfl⟩ | ⟨hreq, cs, hqueue, rfl⟩
  · simp [fetchIdle, hreq]
  · simp [fetchIdle, hreq, hqueue]

/-- A block that is not watched runs the next command as a whole. -/
theorem step_whole {s u : State} {c : Command} {i : Instr} (hrst : s.rst = false) (hph : s.ph = .idle)
    (htaken : Taken s c u) (hdec : decodeCommand c = .ok i) (hfine : s.fine = false) : step s = exec i u := by
  have hu : u.fine = false := by rwa [htaken.eq]
  rw [step_taken hrst hph htaken, accept_ok hdec, launch_whole hu]
  rfl

/-- A watched block enters the first phase of the next command. -/
theorem step_begin {s u t : State} {c : Command} {i : Instr} (hrst : s.rst = false) (hph : s.ph = .idle)
    (htaken : Taken s c u) (hdec : decodeCommand c = .ok i) (hfine : s.fine = true)
    (hstart : startPhase i u = some t) : step s = .next t := by
  have hu : u.fine = true := by rwa [htaken.eq]
  rw [step_taken hrst hph htaken, accept_ok hdec]
  simp [launch, hu, hstart, act]

/-- A watched block runs a command without a phase as a whole. -/
theorem step_unsequenced {s u : State} {c : Command} {i : Instr} (hrst : s.rst = false) (hph : s.ph = .idle)
    (htaken : Taken s c u) (hdec : decodeCommand c = .ok i) (hfine : s.fine = true)
    (hstart : startPhase i u = none) : step s = exec i u := by
  have hu : u.fine = true := by rwa [htaken.eq]
  rw [step_taken hrst hph htaken, accept_ok hdec]
  simp [launch, hu, hstart, act]

/-- An idle block with nothing on its inputs waits (R36). -/
theorem step_wait {s : State} (hrst : s.rst = false) (hph : s.ph = .idle) (hreq : s.request = none)
    (hqueue : s.queue = []) : step s = .next (waitIdle s) := by
  simp [step, fetch, fetchIdle, hrst, hph, hreq, hqueue]

/-- RESET of an idle block (R230). -/
theorem step_reset {s : State} (hrst : s.rst = true) (hph : s.ph = .idle) : step s = .next (applyReset s) := by
  simp [step, fetch, fetchReset, hrst, hph]

/-- RESET of a busy block is refused (the spec's decision D2). -/
theorem step_resetWhileBusy {s : State} (hrst : s.rst = true) (hph : s.ph ≠ .idle) :
    step s = .refused .resetWhileBusy := by
  cases h : s.ph <;> simp_all [step, fetch, fetchReset]

/-- An operation presented to a busy block is refused (the spec's decision D16). -/
theorem step_reentrant {s : State} {c : Command} (hrst : s.rst = false) (hph : s.ph ≠ .idle)
    (hreq : s.request = some c) : step s = .refused .reentrant := by
  cases h : s.ph <;> simp_all [step, fetch, fetchBusy]

/-- A command word that is no operation is refused (R103). -/
theorem step_undecodable {s u : State} {c : Command} {e : DecodeError} (hrst : s.rst = false) (hph : s.ph = .idle)
    (htaken : Taken s c u) (hdec : decodeCommand c = .error e) : step s = .refused (.undecodable e) := by
  rw [step_taken hrst hph htaken]
  simp [accept, hdec, act]

/-! ## The obligations on one step -/

/-- Settles O5: a command is taken from the port or from the host's list alike. -/
theorem stepRunsThePresentedOperation : Obligations.StepRunsThePresentedOperation := fun _ _ _ hrst hph hfine hdec =>
  ⟨fun hreq => step_whole hrst hph (.inl ⟨hreq, rfl⟩) hdec hfine,
   fun cs hreq hqueue => step_whole hrst hph (.inr ⟨hreq, cs, hqueue, rfl⟩) hdec hfine⟩

/-- Only four operations have a phase (R134). -/
theorem startPhase_eq_none {i : Instr} (hinit : i ≠ .initialise) (hext : i ≠ .readExtC) (hread : i ≠ .read32)
    (hpins : i ≠ .initPins) (s : State) : startPhase i s = none := by
  cases i <;> simp_all [startPhase]

/-- Settles O6: a watched block runs what has no phase as a whole. -/
theorem stepRunsUnsequencedOperationWatched : Obligations.StepRunsUnsequencedOperationWatched :=
  fun _ _ _ hrst hph hfine hreq hdec hinit hext hread hpins =>
    step_unsequenced hrst hph (.inl ⟨hreq, rfl⟩) hdec hfine (startPhase_eq_none hinit hext hread hpins _)

/-- The strap that is presented with an operation is one it exists under. -/
theorem strapSelects_strapFor {c : Command} {i : Instr} (hdec : decodeCommand c = .ok i) (m : Mode) :
    strapSelects (strapFor c m) i = true := by
  cases i <;> simp [strapFor, hdec, strapSelects]

/-- The strap stays when the operation exists under it. -/
theorem strapFor_eq_self {c : Command} {i : Instr} (hdec : decodeCommand c = .ok i) {m : Mode}
    (hselects : strapSelects m i = true) : strapFor c m = m := by
  cases i <;> simp_all [strapFor, strapSelects]

/-- A table word that stands for an operation is a command word that does. -/
theorem decodeCommand_of_decodeTableWord {nbits w : Nat} {i : Instr} (h : decodeTableWord nbits w = some i) :
    decodeCommand (commandOfTable nbits w) = .ok i := by
  unfold decodeTableWord at h
  split at h <;> simp_all

/-- Settles O7: the placed word stands on the port of an idle block that runs operations as a whole. -/
theorem placedWordRunsNext : Obligations.PlacedWordRunsNext := by
  intro s nbits w i hword
  have hdec := decodeCommand_of_decodeTableWord hword
  exact ⟨_, step_port (s := s.withFetchWord nbits w) rfl rfl rfl rfl hdec, rfl, strapFor_eq_self hdec,
    strapSelects_strapFor hdec s.mode⟩

/-- Settles O8: waiting is `waitIdle`. -/
theorem idleBlockWaits : Obligations.IdleBlockWaits := fun _ => step_wait

/-- A code from 5 on selects no operation (R103). -/
theorem decodeCommand_reserved {op : BitVec 3} (hop : 5 ≤ op) (arg : Byte) :
    decodeCommand (Command.make 0 op (arg.setWidth 32)) = .error (.reservedOp op) := by
  have hcodes : op ≠ 0 ∧ op ≠ 1 ∧ op ≠ 2 ∧ op ≠ 3 ∧ op ≠ 4 := by
    revert op
    decide
  obtain ⟨h0, h1, h2, h3, h4⟩ := hcodes
  rw [hostPortSelectCode, if_neg h0, if_neg h1, if_neg h2, if_neg h3, if_neg h4]

/-- Settles O9: one lemma for each of the three refusals. -/
theorem stepRefusals : Obligations.StepRefusals :=
  ⟨fun _ _ arg hrst hph hop hreq =>
     step_undecodable hrst hph (.inl ⟨hreq, rfl⟩) (decodeCommand_reserved hop arg),
   fun _ _ => step_reentrant,
   fun _ => step_resetWhileBusy⟩

/-- Settles O10: each value is a field of `State.construct`. -/
theorem resetState : Obligations.ResetState := ⟨fun _ _ => ⟨rfl, rfl, rfl, rfl, rfl, rfl⟩, rfl⟩

/-- Settles O11: the step is `applyReset`, which keeps the strap and the inputs. -/
theorem resetMayRecurWhileIdle : Obligations.ResetMayRecurWhileIdle := fun s hrst hph =>
  ⟨applyReset s, step_reset hrst hph, rfl, rfl, rfl, rfl, rfl, rfl, rfl, rfl, rfl, rfl⟩

/-! ## Leaving `IDLE` -/

/-- `INIT_PINS` as the first phase, as one update (R134). -/
theorem startInitPins_eq (a : Activity) (s : State) :
    startInitPins a s =
      { s with ph := .initPins, active := a, begun := true, csN := 1,
               sck := if s.mode = .bitBang then 0 else s.sck, res := .none, done := false } := by
  rw [startInitPins, enterInitPins_eq]
  rfl

/-- The first read begins with `INIT_PINS` (R122). -/
theorem startRead_of_not_begun {s : State} (h : s.begun = false) (a : Activity) :
    startRead a s = startInitPins a s := by
  simp [startRead, startInitPins, h]

/-- A later read begins with `SELECT` (R134). -/
theorem startRead_of_begun {s : State} (h : s.begun = true) (a : Activity) :
    startRead a s = { s with ph := .select, active := a, csN := 0, res := .none, done := false } := by
  simp [startRead, h, enterSelect, begin]

/-- Settles O54: each operation enters its first phase, in the state from which the command is taken; the other host
operations have none and complete where they are. -/
theorem sequencerLeavesIdle : Obligations.SequencerLeavesIdle := by
  intro s u c i hrst hph hfine hdec htaken
  have hu := Taken.eq htaken
  have hmode : u.mode = s.mode := by rw [hu]
  have hsck : u.sck = s.sck := by rw [hu]
  have hbegun : u.begun = s.begun := by rw [hu]
  refine ⟨fun a hop => ?pins, fun a hop hb => ?select, fun hop => ?others⟩
  case pins =>
    have hstart : startPhase i u = some (startInitPins a u) := by
      rcases hop with ⟨rfl, rfl⟩ | ⟨rfl, rfl⟩ | ⟨⟨rfl, rfl⟩ | ⟨rfl, rfl⟩, hb⟩
      · rfl
      · rfl
      all_goals exact congrArg some (startRead_of_not_begun (hbegun.trans hb) _)
    rw [step_begin hrst hph htaken hdec hfine hstart, startInitPins_eq, hmode, hsck]
  case select =>
    have hstart : startPhase i u = some (startRead a u) := by
      rcases hop with ⟨rfl, rfl⟩ | ⟨rfl, rfl⟩ <;> rfl
    rw [step_begin hrst hph htaken hdec hfine hstart, startRead_of_begun (hbegun.trans hb)]
  case others =>
    have hidle : u.ph = .idle := by rw [hu, ← hph]
    have hstart : startPhase i u = none ∧ i.isHostOp = true := by
      rcases hop with rfl | rfl | ⟨bits, rfl⟩ <;> exact ⟨rfl, rfl⟩
    obtain ⟨t, hexec, ht, hdone, -⟩ := exec_hostOp_completes hstart.2 hidle
    exact ⟨t, (step_unsequenced hrst hph htaken hdec hfine hstart.1).trans hexec, ht, hdone⟩

end Sys2Proof.Proofs.Steps
end

section
/-! PROOFS. Who writes what (R38), what no step changes, and the invariant of the sequencer and its pins
(10_state.md sections 2, 3 and 11). -/

namespace Sys2Proof.Proofs.Invariant

open Sys2Proof.Machine Sys2Proof.Safety Sys2Proof.Proofs.Memory Sys2Proof.Proofs.BitTransport
open Sys2Proof.Proofs.FrameDecoder Sys2Proof.Proofs.Exceptions Sys2Proof.Proofs.Operations
open Sys2Proof.Proofs.Decoding Sys2Proof.Proofs.Steps

/-! ## The access matrix -/

/-- An outcome has one next state. -/
theorem eq_of_next {o : Host.Outcome State Fault Refusal} {t u : State} (ht : o = .next t) (hu : o = .next u) :
    t = u := Host.Outcome.next.inj (ht.symm.trans hu)

/-- The BitBang transfer completes under its strap only (R106). -/
theorem mode_of_read32BitBang {s t : State} (h : exec .read32BitBang s = .next t) : s.mode = .bitBang := by
  cases hmode : s.mode with
  | bitBang => rfl
  | burst => simp [exec, execRead32BitBang, hmode] at h

/-- The Burst transfer completes under its strap only (R106). -/
theorem mode_of_read32Burst {s t : State} (h : exec .read32Burst s = .next t) : s.mode = .burst := by
  cases hmode : s.mode with
  | burst => rfl
  | bitBang => simp [exec, execRead32Burst, hmode] at h

/-- Settles O48: each operation, as one update of the state, names the fields it writes. -/
theorem accessMatrix : Obligations.AccessMatrix := by
  intro i s t h
  cases i with
  | initialise | initPins =>
    obtain rfl := eq_of_next (exec_initPins s) h
    simp +contextual
  | readExtC =>
    obtain rfl := eq_of_next (exec_readExtC s) h
    simp +contextual
  | read32 =>
    obtain rfl := eq_of_next (exec_read32 s) h
    simp +contextual
  | read32BitBang =>
    have hmode := mode_of_read32BitBang h
    obtain rfl := eq_of_next (exec_read32BitBang hmode) h
    simp [hmode]
  | read32Burst =>
    obtain rfl := eq_of_next (exec_read32Burst (mode_of_read32Burst h)) h
    simp
  | decode v =>
    obtain rfl := eq_of_next (exec_decode v s) h
    simp
  | setMask bits =>
    obtain rfl := eq_of_next (exec_setMask bits s) h
    simp
  | decode16 v =>
    obtain rfl := eq_of_next (exec_decode16 v s) h
    simp
  | decode32 v =>
    obtain rfl := eq_of_next (exec_decode32 v s) h
    simp
  | readIntC | getErr | classify | intC =>
    cases h
    simp

/-- What no operation writes (R38). -/
theorem exec_keeps_inputs {i : Instr} {s t : State} (h : exec i s = .next t) :
    t.mode = s.mode ∧ t.rst = s.rst ∧ t.request = s.request ∧ t.queue = s.queue := by
  obtain ⟨-, -, -, -, -, -, -, hmode, hrst, hreq, hqueue, -⟩ := accessMatrix i s t h
  exact ⟨hmode, hrst, hreq, hqueue⟩

/-- An operation ends the sequencer's work or does not touch it, and establishes the pins or does not touch the select
line and `BEGUN` (R27, R132). -/
theorem exec_phase_and_pins {i : Instr} {s t : State} (h : exec i s = .next t) :
    (t.ph = .idle ∧ t.active = .none ∨ t.ph = s.ph ∧ t.active = s.active) ∧
      (t.csN = 1 ∧ t.begun = true ∨ t.csN = s.csN ∧ t.begun = s.begun) := by
  cases i with
  | initialise | initPins =>
    obtain rfl := eq_of_next (exec_initPins s) h
    exact ⟨.inl ⟨rfl, rfl⟩, .inl ⟨rfl, rfl⟩⟩
  | readExtC =>
    obtain rfl := eq_of_next (exec_readExtC s) h
    exact ⟨.inl ⟨rfl, rfl⟩, .inl ⟨rfl, rfl⟩⟩
  | read32 =>
    obtain rfl := eq_of_next (exec_read32 s) h
    exact ⟨.inl ⟨rfl, rfl⟩, .inl ⟨rfl, rfl⟩⟩
  | read32BitBang =>
    obtain rfl := eq_of_next (exec_read32BitBang (mode_of_read32BitBang h)) h
    exact ⟨.inl ⟨rfl, rfl⟩, .inr ⟨rfl, rfl⟩⟩
  | read32Burst =>
    obtain rfl := eq_of_next (exec_read32Burst (mode_of_read32Burst h)) h
    exact ⟨.inl ⟨rfl, rfl⟩, .inr ⟨rfl, rfl⟩⟩
  | readIntC | getErr | setMask | decode | classify | decode16 | decode32 | intC =>
    obtain ⟨-, -, hpins, -, -, hsequencer, -⟩ := accessMatrix _ s t h
    simp only [ne_eq, reduceCtorEq, not_false_eq_true, forall_const] at hpins hsequencer
    exact ⟨.inr hsequencer, .inr hpins.symm⟩

/-! ## What a step can do -/

/-- The ways a step is made. -/
inductive Stepped (s : State) : State → Prop
  /-- RESET of an idle block (R230). -/
  | reset (hrst : s.rst = true) (hph : s.ph = .idle) : Stepped s (applyReset s)
  /-- An idle block with nothing to do (R36). -/
  | wait (hrst : s.rst = false) (hph : s.ph = .idle) (hreq : s.request = none) : Stepped s (waitIdle s)
  /-- A whole operation, in the state from which its command is taken (R180). -/
  | whole {c : Command} {i : Instr} {u t : State} (hrst : s.rst = false) (hph : s.ph = .idle) (htaken : Taken s c u)
      (hexec : exec i u = .next t) : Stepped s t
  /-- The first phase of an operation of a watched block (R134). -/
  | launched {c : Command} {i : Instr} {u t : State} (hrst : s.rst = false) (hph : s.ph = .idle) (htaken : Taken s c u)
      (hstart : startPhase i u = some t) : Stepped s t
  /-- A transition of a busy block (R134). -/
  | tick {t : State} (hrst : s.rst = false) (hreq : s.request = none) (htick : Transition s t) : Stepped s t

/-- The host presents something to an idle block, or nothing. -/
theorem taken_or_nothing (s : State) :
    (∃ c u, Taken s c u) ∨ s.request = none ∧ s.queue = [] := by
  cases hreq : s.request with
  | some c => exact .inl ⟨c, _, .inl ⟨hreq, rfl⟩⟩
  | none =>
    cases hqueue : s.queue with
    | nil => exact .inr ⟨rfl, rfl⟩
    | cons c cs => exact .inl ⟨c, _, .inr ⟨hreq, cs, hqueue, rfl⟩⟩

/-- An idle block that takes a command runs it as a whole or enters its first phase. -/
theorem stepped_of_taken {s u t : State} {c : Command} (hrst : s.rst = false) (hph : s.ph = .idle)
    (htaken : Taken s c u) (h : step s = .next t) : Stepped s t := by
  cases hdec : decodeCommand c with
  | error e => simp [step_undecodable hrst hph htaken hdec] at h
  | ok i =>
    cases hfine : s.fine with
    | false => exact .whole hrst hph htaken ((step_whole hrst hph htaken hdec hfine).symm.trans h)
    | true =>
      cases hstart : startPhase i u with
      | none => exact .whole hrst hph htaken ((step_unsequenced hrst hph htaken hdec hfine hstart).symm.trans h)
      | some v =>
        obtain rfl := eq_of_next (step_begin hrst hph htaken hdec hfine hstart) h
        exact .launched hrst hph htaken hstart

/-- Whatever step is made is made in one of these ways. -/
theorem stepped_of_step {s t : State} (h : step s = .next t) : Stepped s t := by
  by_cases hph : s.ph = .idle
  · cases hrst : s.rst with
    | true =>
      obtain rfl := eq_of_next (step_reset hrst hph) h
      exact .reset hrst hph
    | false =>
      rcases taken_or_nothing s with ⟨c, u, htaken⟩ | ⟨hreq, hqueue⟩
      · exact stepped_of_taken hrst hph htaken h
      · obtain rfl := eq_of_next (step_wait hrst hph hreq hqueue) h
        exact .wait hrst hph hreq
  · cases hrst : s.rst with
    | true => simp [step_resetWhileBusy hrst hph] at h
    | false =>
      cases hreq : s.request with
      | some c => simp [step_reentrant hrst hph hreq] at h
      | none =>
        obtain rfl := eq_of_next (step_busy hrst hreq hph) h
        exact .tick hrst hreq (transition_tick hph)

/-! ## Persistence -/

/-- A read begins with the pins, or with the selection of the chip in a block whose pins are established (R122). -/
theorem startRead_cases (a : Activity) (s : State) :
    startRead a s = startInitPins a s ∨ s.begun = true ∧ startRead a s = enterSelect (begin a s) := by
  cases hbegun : s.begun with
  | false => exact .inl (startRead_of_not_begun hbegun a)
  | true => exact .inr ⟨rfl, by simp [startRead, hbegun]⟩

/-- The first phase of an operation: `INIT_PINS` or, for a read only, `SELECT` (R134). -/
theorem startPhase_cases {i : Instr} {s t : State} (h : startPhase i s = some t) :
    ∃ a ≠ .none, t = startInitPins a s ∨ IsRead a ∧ s.begun = true ∧ t = enterSelect (begin a s) := by
  cases i with
  | initialise | initPins =>
    cases h
    exact ⟨_, Activity.noConfusion, .inl rfl⟩
  | readExtC =>
    cases h
    exact ⟨_, Activity.noConfusion, (startRead_cases _ s).imp_right fun ⟨hb, hs⟩ => ⟨.inl rfl, hb, hs⟩⟩
  | read32 =>
    cases h
    exact ⟨_, Activity.noConfusion, (startRead_cases _ s).imp_right fun ⟨hb, hs⟩ => ⟨.inr rfl, hb, hs⟩⟩
  | readIntC | getErr | setMask | read32BitBang | read32Burst | decode | classify | decode16 | decode32 | intC =>
    cases h

/-- The first phase of an operation keeps the strap and the inputs, and the pins are established in it. -/
theorem startPhase_keeps {i : Instr} {s t : State} (h : startPhase i s = some t) :
    t.begun = true ∧ t.mode = s.mode ∧ t.rst = s.rst ∧ t.request = s.request ∧ t.queue = s.queue := by
  obtain ⟨a, -, rfl | ⟨-, hbegun, rfl⟩⟩ := startPhase_cases h
  · simp [startInitPins]
  · simp [hbegun]

/-- Settles O49: RESET keeps the strap, and nothing else clears `BEGUN`. -/
theorem begunAndStrapPersist : Obligations.BegunAndStrapPersist := by
  intro s t h
  cases stepped_of_step h with
  | reset hrst hph => simp [hrst]
  | wait hrst hph hreq => simp
  | @whole c i u _ hrst hph htaken hexec =>
    have hu := htaken.eq
    obtain ⟨hmode, -⟩ := exec_keeps_inputs hexec
    obtain ⟨-, ⟨-, hbegun⟩ | ⟨-, hbegun⟩⟩ := exec_phase_and_pins hexec
    · exact ⟨by rw [hmode, hu], fun _ _ => hbegun⟩
    · exact ⟨by rw [hmode, hu], fun _ hb => by rw [hbegun, hu, ← hb]⟩
  | @launched c i u _ hrst hph htaken hstart =>
    obtain ⟨hbegun, hmode, -⟩ := startPhase_keeps hstart
    exact ⟨by rw [hmode, htaken.eq], fun _ _ => hbegun⟩
  | tick hrst hreq htick =>
    obtain ⟨hmode, hbegun, -⟩ := htick.keeps
    exact ⟨hmode, fun _ hb => hbegun.trans hb⟩

/-! ## The invariant -/

/-- An idle block with nothing in progress, whose select line is high if its pins are established, meets the
invariant: the other clauses speak of busy phases. -/
theorem inv_of_idle {s : State} (hph : s.ph = .idle) (hact : s.active = .none)
    (hcsN : s.begun = true → s.csN = 1) : Inv s := by
  constructor
  case idle_deselected => exact fun _ => hcsN
  all_goals simp [hph, hact]

/-- Settles O50: after reset the block is idle, and its pins are not established yet. -/
theorem resetMeetsTheInvariant : Obligations.ResetMeetsTheInvariant := by
  have hreset (m : Mode) (n : Nat) : Inv (State.construct m n) := inv_of_idle rfl rfl Bool.noConfusion
  exact ⟨hreset, hreset .bitBang 0⟩

/-- A block that establishes its pins for some operation meets the invariant (R124). -/
theorem inv_startInitPins {a : Activity} (ha : a ≠ .none) (s : State) : Inv (startInitPins a s) := by
  rw [startInitPins_eq]
  constructor <;> simp [ha]

/-- What holds during a read once its pins are established: the part of the invariant that all phases from `SELECT` on
share. -/
structure Reading (s : State) : Prop where
  begun : s.begun = true
  active : s.active = .readExtC ∨ s.active = .read32

theorem Reading.ne_none {s : State} (h : Reading s) : s.active ≠ .none := by
  rcases h.active with ha | ha <;> simp [ha]

/-- From `SELECT` on a read is in progress. -/
theorem reading_of_inv {s : State} {p : Phase} (hinv : Inv s) (hph : s.ph = p) (hidle : p ≠ .idle := by decide)
    (hpins : p ≠ .initPins := by decide) : Reading s :=
  ⟨hinv.busy_begun (hph ▸ hidle), hinv.reading (hph ▸ hidle) (hph ▸ hpins)⟩

/-! Each phase of a read is entered with its own clause of the invariant. -/

section Entering

variable {s : State} (h : Reading s)
include h

theorem inv_enterSelect : Inv (enterSelect s) := by
  constructor <;> simp [h.begun, h.active, h.ne_none]

theorem inv_enterSettle (hcsN : s.csN = 0) : Inv (enterSettle s) := by
  constructor
  case settle => exact fun _ => ⟨hcsN, rfl, rfl⟩
  all_goals simp [h.begun, h.active, h.ne_none]

theorem inv_enterBitLow (hcsN : s.csN = 0) (hmode : s.mode = .bitBang) (hcnt : s.bitcnt < 32) :
    Inv (enterBitLow s) := by
  constructor
  case bitLow => exact fun _ => ⟨hcsN, hmode, rfl, hcnt⟩
  all_goals simp [h.begun, h.active, h.ne_none]

theorem inv_enterBitSample (hcsN : s.csN = 0) (hmode : s.mode = .bitBang) (hsck : s.sck = 0) (hcnt : s.bitcnt < 32) :
    Inv (enterBitSample s) := by
  have hrange : ∀ n : BitVec 6, n < 32 → 0 < n + 1 ∧ n + 1 ≤ 32 := by decide
  constructor
  case bitSample => exact fun _ => ⟨hcsN, hrange _ hcnt⟩
  case bitSample_bitBang => exact fun _ _ => hsck
  all_goals simp [h.begun, h.active, h.ne_none, hmode]

theorem inv_enterBitHigh (hcsN : s.csN = 0) (hmode : s.mode = .bitBang) (hcnt : 0 < s.bitcnt ∧ s.bitcnt ≤ 32) :
    Inv (enterBitHigh s) := by
  constructor
  case bitHigh => exact fun _ => ⟨hcsN, hmode, rfl, hcnt⟩
  all_goals simp [h.begun, h.active, h.ne_none]

theorem inv_enterBurstByte (hcsN : s.csN = 0) (hmode : s.mode = .burst) (hcnt : s.bitcnt < 32)
    (hbyte : s.bitcnt.extractLsb' 0 3 = 0) : Inv (enterBurstByte s) := by
  have hrange : ∀ n : BitVec 6, n < 32 → n.extractLsb' 0 3 = 0 →
      (0 < n + 8 ∧ n + 8 ≤ 32) ∧ (n + 8).extractLsb' 0 3 = 0 := by decide
  obtain ⟨hcnt', hbyte'⟩ := hrange _ hcnt hbyte
  constructor
  case bitSample => exact fun _ => ⟨hcsN, hcnt'⟩
  case burstByte => exact fun _ _ => hbyte'
  all_goals simp [h.begun, h.active, h.ne_none, hmode]

theorem inv_enterDeselect (hcnt : s.bitcnt ≤ 32) (hlast : ¬ s.bitcnt < 32) : Inv (enterDeselect s) := by
  have h32 : ∀ n : BitVec 6, n ≤ 32 → ¬ n < 32 → n = 32 := by decide
  constructor
  case deselect => exact fun _ => ⟨rfl, h32 _ hcnt hlast⟩
  all_goals simp [h.begun, h.active, h.ne_none]

end Entering

/-- A transition keeps the invariant: each phase's clause gives what the next phase is entered with. -/
theorem inv_of_transition {s t : State} (hinv : Inv s) (h : Transition s t) : Inv t := by
  cases h with
  | select hph hread => exact inv_enterSelect ⟨hinv.busy_begun (by simp [hph]), hread⟩
  | endPins hph hread => exact inv_of_idle rfl rfl fun _ => hinv.initPins hph
  | settle hph => exact inv_enterSettle (reading_of_inv hinv hph) (hinv.select hph)
  | firstBit hph hmode =>
    obtain ⟨hcsN, -, hcnt⟩ := hinv.settle hph
    exact inv_enterBitLow (reading_of_inv hinv hph) hcsN hmode (by rw [hcnt]; decide)
  | firstByte hph hmode =>
    obtain ⟨hcsN, -, hcnt⟩ := hinv.settle hph
    exact inv_enterBurstByte (reading_of_inv hinv hph) hcsN hmode (by rw [hcnt]; decide)
      (by rw [hcnt]; decide)
  | sample hph =>
    obtain ⟨hcsN, hmode, hsck, hcnt⟩ := hinv.bitLow hph
    exact inv_enterBitSample (reading_of_inv hinv hph) hcsN hmode hsck hcnt
  | clockHigh hph hmode =>
    obtain ⟨hcsN, hrange⟩ := hinv.bitSample hph
    exact inv_enterBitHigh (reading_of_inv hinv hph) hcsN hmode hrange
  | nextByte hph hmode hcnt =>
    exact inv_enterBurstByte (reading_of_inv hinv hph) (hinv.bitSample hph).1 hmode hcnt
      (hinv.burstByte hph hmode)
  | lastByte hph hmode hcnt =>
    obtain ⟨-, -, hmax⟩ := hinv.bitSample hph
    exact inv_enterDeselect (reading_of_inv hinv hph) hmax hcnt
  | nextBit hph hcnt =>
    obtain ⟨hcsN, hmode, -⟩ := hinv.bitHigh hph
    exact inv_enterBitLow (reading_of_inv hinv hph) hcsN hmode hcnt
  | lastBit hph hcnt =>
    obtain ⟨-, -, -, -, hmax⟩ := hinv.bitHigh hph
    exact inv_enterDeselect (reading_of_inv hinv hph) hmax hcnt
  | endRead hph =>
    rw [finishRead_eq]
    exact inv_of_idle rfl rfl fun _ => (hinv.deselect hph).1

/-- Settles O51: an idle step ends idle or in the first phase of an operation, and a busy one makes a transition. -/
theorem everyStepKeepsTheInvariant : Obligations.EveryStepKeepsTheInvariant := by
  intro s t hinv h
  cases stepped_of_step h with
  | reset hrst hph => exact inv_of_idle rfl rfl Bool.noConfusion
  | wait hrst hph hreq => exact inv_of_idle hph (hinv.idle_iff.1 hph) (hinv.idle_deselected hph)
  | @whole c i u _ hrst hph htaken hexec =>
    have hu := htaken.eq
    have hphase : u.ph = .idle ∧ u.active = .none := by
      rw [hu]
      exact ⟨hph, hinv.idle_iff.1 hph⟩
    have hcsN : u.begun = true → u.csN = 1 := by
      rw [hu]
      exact hinv.idle_deselected hph
    obtain ⟨hidle, hpins⟩ := exec_phase_and_pins hexec
    obtain ⟨hph', hact'⟩ : t.ph = .idle ∧ t.active = .none := by
      rcases hidle with hidle | ⟨hph', hact'⟩
      · exact hidle
      · rwa [hph', hact']
    refine inv_of_idle hph' hact' fun hb => ?_
    rcases hpins with ⟨hcsN', -⟩ | ⟨hcsN', hbegun⟩
    · exact hcsN'
    · exact hcsN'.trans (hcsN (hbegun.symm.trans hb))
  | launched hrst hph htaken hstart =>
    obtain ⟨a, ha, rfl | ⟨hread, hbegun, rfl⟩⟩ := startPhase_cases hstart
    · exact inv_startInitPins ha _
    · exact inv_enterSelect ⟨hbegun, hread⟩
  | tick hrst hreq htick => exact inv_of_transition hinv htick

end Sys2Proof.Proofs.Invariant
end

section
/-! PROOFS. A host that does its duties is never refused (R180, R236, R239). -/

namespace Sys2Proof.Proofs.Duties

open Sys2Proof.Machine Sys2Proof.Safety Sys2Proof.Proofs.BitTransport
open Sys2Proof.Proofs.Steps Sys2Proof.Proofs.Invariant

/-- An operation that exists in the block completes: only the strap refuses one (R106, R180). -/
theorem exec_completes {i : Instr} {s : State} (h : strapSelects s.mode i = true) : ∃ t, exec i s = .next t := by
  cases i with
  | read32BitBang => exact ⟨_, exec_read32BitBang (by simpa [strapSelects] using h)⟩
  | read32Burst => exact ⟨_, exec_read32Burst (by simpa [strapSelects] using h)⟩
  | initialise | readExtC | readIntC | getErr | setMask | read32 | initPins | decode | classify | decode16 | decode32
  | intC => exact ⟨_, rfl⟩

/-- The command an idle block takes is one of the host's, and the list it leaves is part of the host's. -/
theorem runnable_of_taken {s u : State} {c : Command} (h : HostDuties s) (htaken : Taken s c u) :
    Runnable s.mode c ∧ u.queue ⊆ s.queue := by
  rcases htaken with ⟨hreq, rfl⟩ | ⟨-, cs, hqueue, rfl⟩
  · exact ⟨h.request_runs c hreq, List.Subset.refl _⟩
  · exact ⟨h.queue_runs c (by simp [hqueue]), by simp [hqueue]⟩

/-- An idle block starts whatever a dutiful host presents. -/
theorem step_made_of_taken {s u : State} {c : Command} (h : HostDuties s) (hrst : s.rst = false) (hph : s.ph = .idle)
    (htaken : Taken s c u) : ∃ t, step s = .next t := by
  obtain ⟨⟨i, hdec, hselects⟩, -⟩ := runnable_of_taken h htaken
  obtain ⟨t, hexec⟩ : ∃ t, exec i u = .next t := exec_completes (by rwa [htaken.eq])
  cases hfine : s.fine with
  | false => exact ⟨t, (step_whole hrst hph htaken hdec hfine).trans hexec⟩
  | true =>
    cases hstart : startPhase i u with
    | none => exact ⟨t, (step_unsequenced hrst hph htaken hdec hfine hstart).trans hexec⟩
    | some v => exact ⟨v, step_begin hrst hph htaken hdec hfine hstart⟩

/-- A dutiful host's step is made: a busy block has nothing presented and is not reset. -/
theorem step_made {s : State} (h : HostDuties s) : ∃ t, step s = .next t := by
  by_cases hph : s.ph = .idle
  · cases hrst : s.rst with
    | true => exact ⟨_, step_reset hrst hph⟩
    | false =>
      rcases taken_or_nothing s with ⟨c, u, htaken⟩ | ⟨hreq, hqueue⟩
      · exact step_made_of_taken h hrst hph htaken
      · exact ⟨_, step_wait hrst hph hreq hqueue⟩
  · exact ⟨_, step_busy (h.no_reset hph) (h.no_overlap hph) hph⟩

/-- The duties stay done when the strap stays, nothing is added to what the host presents, and a busy block has an empty
port and no reset. -/
theorem duties_of_keeps {s t : State} (h : HostDuties s) (hmode : t.mode = s.mode)
    (hreq : t.request = s.request ∨ t.request = none) (hqueue : t.queue ⊆ s.queue)
    (hbusy : t.ph ≠ .idle → t.request = none ∧ t.rst = false) : HostDuties t where
  no_overlap hph := (hbusy hph).1
  no_reset hph := (hbusy hph).2
  request_runs c hc := by
    rcases hreq with hreq | hreq
    · exact hmode ▸ h.request_runs c (hreq ▸ hc)
    · simp [hreq] at hc
  queue_runs c hc := hmode ▸ h.queue_runs c (hqueue hc)

/-- The duties stay done when a command is taken and run or begun. -/
theorem duties_of_taken {s u t : State} {c : Command} (h : HostDuties s) (hrst : s.rst = false) (htaken : Taken s c u)
    (hkeeps : t.mode = u.mode ∧ t.rst = u.rst ∧ t.request = u.request ∧ t.queue = u.queue) : HostDuties t := by
  obtain ⟨hmode, hrst', hreq, hqueue⟩ := hkeeps
  have hu := htaken.eq
  have hnone : t.request = none := by rw [hreq, hu]
  refine duties_of_keeps h (by rw [hmode, hu]) (.inr hnone) ?_ fun _ => ⟨hnone, by rw [hrst', hu, ← hrst]⟩
  rw [hqueue]
  exact (runnable_of_taken h htaken).2

/-- Every step keeps the host's duties done. -/
theorem duties_step {s t : State} (h : HostDuties s) (hstep : step s = .next t) : HostDuties t := by
  cases stepped_of_step hstep with
  | reset hrst hph => exact duties_of_keeps h rfl (.inl rfl) (List.Subset.refl _) fun hbusy => absurd rfl hbusy
  | wait hrst hph hreq => exact duties_of_keeps h rfl (.inl rfl) (List.Subset.refl _) fun hbusy => absurd hph hbusy
  | whole hrst hph htaken hexec => exact duties_of_taken h hrst htaken (exec_keeps_inputs hexec)
  | launched hrst hph htaken hstart => exact duties_of_taken h hrst htaken (startPhase_keeps hstart).2
  | tick hrst hreq htick =>
    obtain ⟨hmode, -, hrst', hreq', hqueue⟩ := htick.keeps
    exact duties_of_keeps h hmode (.inl hreq') (hqueue ▸ List.Subset.refl _) fun _ =>
      ⟨hreq'.trans hreq, hrst'.trans hrst⟩

/-- Settles O52: the step is made, and it keeps the duties done. -/
theorem dutifulHostIsNeverRefused : Obligations.DutifulHostIsNeverRefused := by
  intro s h
  obtain ⟨t, hstep⟩ := step_made h
  exact ⟨t, hstep, duties_step h hstep⟩

/-- Settles O53, by induction on the number of steps: the duties are the invariant of the run. -/
theorem dutifulHostRunsSafely : Obligations.DutifulHostRunsSafely := by
  intro s h n
  induction n generalizing s with
  | zero => exact ⟨s, rfl⟩
  | succ n ih =>
    obtain ⟨t, hstep, ht⟩ := dutifulHostIsNeverRefused s h
    rw [runSteps_succ n hstep]
    exact ih t ht

end Sys2Proof.Proofs.Duties
end

section
/-! PROOFS. Runs of a busy block as iterates of the sequencer's transition: the events of a read, its end, its least
time (40_bittransport.md rules R126 to R135; 70_reset_and_hazards.md rules R234, R242). -/

namespace Sys2Proof.Proofs.Runs

open Sys2Proof.Machine Sys2Proof.Safety Sys2Proof.Proofs.Memory Sys2Proof.Proofs.Exceptions
open Sys2Proof.Proofs.Operations Sys2Proof.Proofs.Steps Sys2Proof.Proofs.Invariant

/-! ## Runs and transitions -/

/-- A run of two steps. -/
theorem runSteps_two {s t u : State} (hst : step s = .next t) (htu : step t = .next u) : runSteps 2 s = .next u :=
  (runSteps_succ 1 hst).trans (runSteps_succ 0 htu)

/-- An idle block makes no transition, so a block that is busy now was busy all along. -/
theorem busy_of_tick_iterate {s : State} {n : Nat} (h : (tick^[n] s).ph ≠ .idle) : s.ph ≠ .idle := by
  intro hidle
  rw [Function.iterate_fixed (tick_idle hidle)] at h
  exact h hidle

/-- As long as the block is busy, a run is made of transitions. -/
theorem runSteps_succ_eq_tick {s : State} {n : Nat} (hrst : s.rst = false) (hreq : s.request = none)
    (hbusy : (tick^[n] s).ph ≠ .idle) : runSteps (n + 1) s = .next (tick^[n + 1] s) := by
  induction n generalizing s with
  | zero => exact runSteps_succ 0 (step_busy hrst hreq hbusy)
  | succ n ih =>
    have hph : s.ph ≠ .idle := busy_of_tick_iterate hbusy
    obtain ⟨-, -, hrst', hreq', -⟩ := (transition_tick hph).keeps
    rw [runSteps_succ _ (step_busy hrst hreq hph), Function.iterate_succ_apply]
    exact ih (hrst'.trans hrst) (hreq'.trans hreq) hbusy

/-- A run that has not ended yet is made of transitions. -/
theorem runSteps_eq_tick {s : State} {n : Nat} (hrst : s.rst = false) (hreq : s.request = none)
    (hbusy : (tick^[n] s).ph ≠ .idle) : runSteps n s = .next (tick^[n] s) := by
  cases n with
  | zero => rfl
  | succ n =>
    refine runSteps_succ_eq_tick hrst hreq fun hidle => hbusy ?_
    rw [Function.iterate_succ_apply', tick_idle hidle, hidle]

/-! ## The transfer, phase by phase -/

/-- What the loop of R127 has done after `k` cycles. -/
theorem bitCycle_iterate_fields (u : State) (k : Nat) :
    (bitCycle^[k] u).csN = u.csN ∧ (bitCycle^[k] u).bitcnt = u.bitcnt + BitVec.ofNat 6 k ∧
      (bitCycle^[k] u).mode = u.mode ∧ (bitCycle^[k] u).acc = shiftIn (levelAt u) k u.acc := by
  cases k with
  | zero => simp [shiftIn]
  | succ k => simp [bitCycle_iterate]

/-- A block of mode `m` at `SETTLE`, where no bit is counted yet. -/
structure AtSettle (m : Mode) (u : State) : Prop where
  ph : u.ph = .settle
  bitcnt : u.bitcnt = 0
  mode : u.mode = m

section BitBang

variable {u : State} (h : AtSettle .bitBang u)
include h

/-- Before each of the 32 cycles the next phase is `BIT_LOW` (R134). -/
theorem tick_bitCycle {k : Nat} (hk : k < 32) : tick (bitCycle^[k] u) = enterBitLow (bitCycle^[k] u) := by
  cases k with
  | zero => exact tick_settle_bitBang h.ph h.mode
  | succ k =>
    rw [bitCycle_iterate]
    refine tick_bitHigh rfl ?_
    rw [h.bitcnt]
    exact BitVec.lt_def.2 (by simp; omega)

/-- The three phases of a cycle (R127). -/
theorem tick_iterate_three {k : Nat} (hk : k < 32) : tick^[3] (bitCycle^[k] u) = bitCycle^[k + 1] u := by
  obtain ⟨-, -, hmode, -⟩ := bitCycle_iterate_fields u k
  have hsample : (enterBitSample (enterBitLow (bitCycle^[k] u))).mode = .bitBang := by simp [hmode, h.mode]
  rw [Function.iterate_succ_apply', Function.iterate_succ_apply', Function.iterate_succ_apply',
    Function.iterate_zero_apply, tick_bitCycle h hk, tick_bitLow (s := enterBitLow _) rfl,
    tick_bitSample_bitBang rfl hsample, Function.iterate_succ_apply' bitCycle]
  rfl

/-- `k` cycles are `3 * k` transitions (R135). -/
theorem tick_iterate_cycles {k : Nat} (hk : k ≤ 32) : tick^[3 * k] u = bitCycle^[k] u := by
  induction k with
  | zero => rfl
  | succ k ih =>
    rw [show 3 * (k + 1) = 3 + 3 * k by ring, Function.iterate_add_apply, ih (by omega), tick_iterate_three h hk]

theorem tick_iterate_bitLow {k : Nat} (hk : k < 32) : tick^[3 * k + 1] u = enterBitLow (bitCycle^[k] u) := by
  rw [Function.iterate_succ_apply', tick_iterate_cycles h hk.le, tick_bitCycle h hk]

theorem tick_iterate_bitSample {k : Nat} (hk : k < 32) :
    tick^[3 * k + 2] u = enterBitSample (enterBitLow (bitCycle^[k] u)) := by
  rw [Function.iterate_succ_apply', tick_iterate_bitLow h hk]
  exact tick_bitLow rfl

/-- After the last cycle the chip is deselected (R134). -/
theorem tick_iterate_deselect : tick^[97] u = enterDeselect (transfer u) := by
  have htransfer : transfer u = bitCycle^[32] u := by rw [transfer, h.mode]; rfl
  have hlast : ¬ (bitCycle^[32] u).bitcnt < 32 := by
    obtain ⟨-, hcnt, -⟩ := bitCycle_iterate_fields u 32
    rw [hcnt, h.bitcnt]
    decide
  rw [htransfer, Function.iterate_succ_apply', tick_iterate_cycles h (k := 32) le_rfl]
  exact tick_bitHigh_last (by rw [bitCycle_iterate]) hlast

end BitBang

/-- The four bytes of a Burst block and the deselection (R134). -/
theorem tick_iterate_deselect_burst {u : State} (h : AtSettle .burst u) :
    tick^[5] u = enterDeselect (transfer u) := by
  have hbyte {k : Nat} (hk : k < 3) : tick (enterBurstByte^[k + 1] u) = enterBurstByte^[k + 2] u := by
    rw [Function.iterate_succ_apply' enterBurstByte (k + 1), enterBurstByte_iterate]
    refine tick_bitSample_burst rfl h.mode ?_
    rw [h.bitcnt]
    exact BitVec.lt_def.2 (by simp; omega)
  have hlast : tick (enterBurstByte^[4] u) = enterDeselect (enterBurstByte^[4] u) := by
    rw [enterBurstByte_iterate]
    refine tick_bitSample_burst_last rfl h.mode ?_
    rw [h.bitcnt]
    show ¬ (0 + 32 : BitVec 6) < 32
    decide
  have htransfer : transfer u = enterBurstByte^[4] u := by rw [transfer, h.mode]; rfl
  have hfirst : tick u = enterBurstByte^[1] u := tick_settle_burst h.ph h.mode
  calc tick^[5] u = tick (tick (tick (tick (tick u)))) := rfl
    _ = enterDeselect (transfer u) := by
      rw [hfirst, hbyte (by decide), hbyte (by decide), hbyte (by decide), hlast, htransfer]

/-- In either mode a block at `SETTLE` transfers its frame and deselects the chip within 97 transitions. -/
theorem tick_iterate_transfer {m : Mode} {u : State} (h : AtSettle m u) :
    ∃ n ≤ 97, tick^[n] u = enterDeselect (transfer u) := by
  cases m with
  | bitBang => exact ⟨97, le_rfl, tick_iterate_deselect h⟩
  | burst => exact ⟨5, by decide, tick_iterate_deselect_burst h⟩

/-! ## A read from its first phase -/

/-- `SETTLE` is entered with nothing counted (R123). -/
theorem atSettle_enterSettle (s : State) : AtSettle s.mode (enterSettle s) := ⟨rfl, rfl, rfl⟩

/-- The phases of a read of a block in its first phase are those of `READ32` (R126), within 99 transitions. -/
theorem tick_iterate_startRead {a : Activity} (ha : IsRead a) (s : State) :
    ∃ n ≤ 99, tick^[n] (startRead a s) = readFrame (begin a s) := by
  have hselect : ∃ m ≤ 1, tick^[m] (startRead a s) = enterSelect (ensureBegun (begin a s)) := by
    cases hbegun : s.begun with
    | false =>
      have hensure : ensureBegun (begin a s) = startInitPins a s := by simp [ensureBegun, startInitPins, hbegun]
      rw [startRead_of_not_begun hbegun, hensure]
      exact ⟨1, le_rfl, tick_initPins_of_read (by simp [startInitPins]) (by simpa [startInitPins] using ha)⟩
    | true => exact ⟨0, by decide, by simp [startRead, ensureBegun, hbegun]⟩
  obtain ⟨m, hm, hselect⟩ := hselect
  obtain ⟨n, hn, htransfer⟩ := tick_iterate_transfer (atSettle_enterSettle (enterSelect (ensureBegun (begin a s))))
  refine ⟨n + (1 + m), by omega, ?_⟩
  rw [Function.iterate_add_apply, Function.iterate_add_apply, hselect, Function.iterate_one, tick_select rfl, htransfer]
  rfl

/-- A read run phase by phase ends, within 101 steps, with the frame of `READ32` and what follows it (R134). -/
theorem runSteps_read {s u : State} {c : Command} {i : Instr} {a : Activity} (hrst : s.rst = false)
    (hph : s.ph = .idle) (hfine : s.fine = true) (htaken : Taken s c u) (hdec : decodeCommand c = .ok i)
    (ha : IsRead a) (hstart : startPhase i u = some (startRead a u)) :
    ∃ n ≤ 101, runSteps n s = .next (finishRead (readFrame (begin a u))) := by
  obtain ⟨n, hn, hframe⟩ := tick_iterate_startRead ha u
  obtain ⟨-, -, hrst', hreq', -⟩ := startPhase_keeps hstart
  have hrst0 : (startRead a u).rst = false := by rw [hrst', htaken.eq, ← hrst]
  have hreq0 : (startRead a u).request = none := by rw [hreq', htaken.eq]
  have hdeselect : (readFrame (begin a u)).ph = .deselect := by rw [readFrame_eq]
  refine ⟨n + 1 + 1, by omega, ?_⟩
  rw [runSteps_succ _ (step_begin hrst hph htaken hdec hfine hstart),
    runSteps_succ_eq_tick hrst0 hreq0 (by simp [hframe, hdeselect]), Function.iterate_succ_apply', hframe,
    tick_deselect hdeselect]

/-- `INIT_PINS` run phase by phase ends after two steps (R134). -/
theorem runSteps_pins {s u : State} {c : Command} {i : Instr} {a : Activity} (hrst : s.rst = false)
    (hph : s.ph = .idle) (hfine : s.fine = true) (htaken : Taken s c u) (hdec : decodeCommand c = .ok i)
    (ha : ¬ IsRead a) (hstart : startPhase i u = some (startInitPins a u)) :
    runSteps 2 s = .next (completeSequenced .none (startInitPins a u)) := by
  obtain ⟨-, -, hrst', hreq', -⟩ := startPhase_keeps hstart
  have hrst0 : (startInitPins a u).rst = false := by rw [hrst', htaken.eq, ← hrst]
  have hreq0 : (startInitPins a u).request = none := by rw [hreq', htaken.eq]
  have hpins : (startInitPins a u).ph = .initPins := by simp [startInitPins]
  have hactive : (startInitPins a u).active = a := by simp [startInitPins]
  refine runSteps_two (step_begin hrst hph htaken hdec hfine hstart) ?_
  rw [step_busy hrst0 hreq0 (by simp [hpins]), tick_initPins_of_not_read hpins (by rwa [hactive])]

/-- Settles O21: the last transition of a read is the operation's own ending, and `INIT_PINS` ends at once. -/
theorem phaseByPhaseRunEqualsTheOperation : Obligations.PhaseByPhaseRunEqualsTheOperation := by
  intro s c i hrst hph hfine hreq hdec hop
  have htaken : Taken s c { s with request := none } := .inl ⟨hreq, rfl⟩
  rcases hop with rfl | rfl | rfl | rfl
  · refine ⟨2, by decide, (runSteps_pins hrst hph hfine htaken hdec (by simp [IsRead]) rfl).trans ?_⟩
    rw [exec_initialise, exec_initPins, startInitPins_eq]
    rfl
  · obtain ⟨n, hn, hrun⟩ := runSteps_read hrst hph hfine htaken hdec (.inl rfl) rfl
    refine ⟨n, hn, hrun.trans ?_⟩
    rw [finishRead_readExtC (by rw [readFrame_eq]; rfl), readFrame_eq, exec_readExtC]
    rfl
  · obtain ⟨n, hn, hrun⟩ := runSteps_read hrst hph hfine htaken hdec (.inr rfl) rfl
    refine ⟨n, hn, hrun.trans ?_⟩
    rw [finishRead_of_ne (by rw [readFrame_eq]; exact Activity.noConfusion), readFrame_eq, exec_read32]
    rfl
  · refine ⟨2, by decide, (runSteps_pins hrst hph hfine htaken hdec (by simp [IsRead]) rfl).trans ?_⟩
    rw [exec_initPins, startInitPins_eq]
    rfl

end Sys2Proof.Proofs.Runs
end

section
/-! PROOFS. The events of a read: pins and accumulator phase by phase, the first read, the end of a busy block, and the
least time (40_bittransport.md rules R122, R130, R135; 70_reset_and_hazards.md rules R234, R242). -/

namespace Sys2Proof.Proofs.Events

open Sys2Proof.Machine Sys2Proof.Safety Sys2Proof.Proofs.Memory Sys2Proof.Proofs.Operations
open Sys2Proof.Proofs.Steps Sys2Proof.Proofs.Invariant Sys2Proof.Proofs.Runs

/-! ## The pin events of a BitBang read -/

/-- A BitBang read has come to `SETTLE` in the state `u`, and the line still shows the samples of the state `s`. -/
structure SettledRead (s u : State) : Prop where
  settle : AtSettle .bitBang u
  acc : u.acc = 0
  csN : u.csN = 0
  levels : levelAt u = levelAt s
  rst : u.rst = false
  request : u.request = none

/-- `SETTLE` follows `SELECT` (R134). -/
theorem step_select {s : State} (hrst : s.rst = false) (hreq : s.request = none) (hph : s.ph = .select) :
    step s = .next (enterSettle s) := by
  rw [step_busy hrst hreq (by simp [hph]), tick_select hph]

/-- A read of a block with established pins comes to `SETTLE` in two steps (R135, events 1 and 2). -/
theorem runSteps_settle {s : State} {c : Command} (hrst : s.rst = false) (hph : s.ph = .idle) (hfine : s.fine = true)
    (hmode : s.mode = .bitBang) (hbegun : s.begun = true) (hreq : s.request = some c)
    (hdec : decodeCommand c = .ok .readExtC) :
    ∃ x, runSteps 1 s = .next x ∧ x.ph = .select ∧ x.csN = 0 ∧ x.sck = s.sck ∧
      runSteps 2 s = .next (enterSettle x) ∧ SettledRead s (enterSettle x) := by
  have hstart : startPhase .readExtC { s with request := none } = some _ :=
    congrArg some (startRead_of_begun (s := { s with request := none }) hbegun .readExtC)
  have hstep := step_begin hrst hph (.inl ⟨hreq, rfl⟩) hdec hfine hstart
  exact ⟨_, runSteps_succ 0 hstep, rfl, rfl, rfl,
    runSteps_two hstep (step_select hrst rfl rfl),
    ⟨rfl, rfl, hmode⟩, rfl, rfl, rfl, hrst, rfl⟩

section Cycle

variable {s u : State} (h : SettledRead s u) {k : Nat} (hk : k < 32)
include h hk

/-- The clock goes low (R135). -/
theorem runSteps_bitLow :
    ∃ t, runSteps (3 * k + 1) u = .next t ∧ t.ph = .bitLow ∧ t.csN = 0 ∧ t.sck = 0 := by
  have htick := tick_iterate_bitLow h.settle hk
  obtain ⟨hcsN, -⟩ := bitCycle_iterate_fields u k
  refine ⟨_, runSteps_eq_tick h.rst h.request (by simp [htick]), ?_⟩
  rw [htick]
  exact ⟨rfl, hcsN.trans h.csN, rfl⟩

/-- The bits sampled so far stand in the accumulator, most recent in bit 0 (R21). -/
theorem runSteps_bitSample :
    ∃ t, runSteps (3 * k + 2) u = .next t ∧ t.ph = .bitSample ∧ t.csN = 0 ∧ t.sck = 0 ∧ t.bitcnt.toNat = k + 1 ∧
      (∀ j ≤ k, t.acc.getLsbD j = (levelAt s (k - j) == 1)) ∧ (∀ j, k < j → t.acc.getLsbD j = false) := by
  have htick := tick_iterate_bitSample h.settle hk
  have hcycle : (enterBitSample (enterBitLow (bitCycle^[k] u))).bitcnt = (bitCycle^[k + 1] u).bitcnt ∧
      (enterBitSample (enterBitLow (bitCycle^[k] u))).acc = (bitCycle^[k + 1] u).acc := by
    rw [Function.iterate_succ_apply']
    exact ⟨rfl, rfl⟩
  obtain ⟨-, hcnt, -, hacc⟩ := bitCycle_iterate_fields u (k + 1)
  obtain ⟨hcsN, -⟩ := bitCycle_iterate_fields u k
  rw [hcnt, hacc, h.settle.bitcnt, h.acc, h.levels] at hcycle
  refine ⟨_, runSteps_eq_tick h.rst h.request (by simp [htick]), ?_⟩
  rw [htick, hcycle.1, hcycle.2]
  refine ⟨rfl, hcsN.trans h.csN, rfl, ?count, fun j hj => ?sampled, fun j hj => ?clear⟩
  case count =>
    simp
    omega
  case sampled => rw [shiftIn_getLsbD _ _ _ _ (by omega), if_pos (by omega), Nat.add_sub_cancel]
  case clear =>
    by_cases hj32 : j < 32
    · rw [shiftIn_getLsbD _ _ _ _ hj32, if_neg (by omega)]
      exact BitVec.getLsbD_zero
    · exact BitVec.getLsbD_of_ge _ _ (by omega)

/-- The clock goes high (R135). -/
theorem runSteps_bitHigh :
    ∃ t, runSteps (3 * k + 3) u = .next t ∧ t.ph = .bitHigh ∧ t.csN = 0 ∧ t.sck = 1 := by
  have htick := tick_iterate_cycles h.settle (k := k + 1) hk
  rw [bitCycle_iterate] at htick
  refine ⟨_, runSteps_eq_tick h.rst h.request (n := 3 * (k + 1)) (by simp [htick]), ?_⟩
  rw [htick]
  exact ⟨rfl, h.csN, rfl⟩

end Cycle

/-- The chip is deselected with the whole frame sampled, and one transition more ends the operation (R135). -/
theorem runSteps_deselect {s u : State} (h : SettledRead s u) :
    (∃ t, runSteps 97 u = .next t ∧ t.ph = .deselect ∧ t.csN = 1 ∧ t.sck = 1 ∧ SamplesAre s t.acc) ∧
      ∃ t, runSteps 98 u = .next t ∧ t.ph = .idle ∧ t.csN = 1 ∧ t.sck = 1 ∧ t.done = true := by
  have htick := tick_iterate_deselect h.settle
  have hbusy : (tick^[97] u).ph ≠ .idle := by
    rw [htick]
    exact Phase.noConfusion
  have hsck : (transfer u).sck = 1 := by rw [transfer_eq]; exact if_pos h.settle.mode
  have hacc : SamplesAre s (transfer u).acc := by
    rw [transfer_eq, h.acc, h.levels]
    exact shiftIn_samplesAre s 0
  refine ⟨⟨_, runSteps_eq_tick h.rst h.request hbusy, ?_⟩, ⟨_, runSteps_succ_eq_tick h.rst h.request hbusy, ?_⟩⟩
  · rw [htick]
    exact ⟨rfl, rfl, hsck, hacc⟩
  · rw [Function.iterate_succ_apply', htick, tick_deselect rfl, finishRead_eq]
    exact ⟨rfl, rfl, hsck, rfl⟩

/-- Settles O20: the first two events come to `SETTLE`, and from there the cycles follow. -/
theorem bitBangReadPinEvents : Obligations.BitBangReadPinEvents := by
  intro s c hrst hph hfine hmode hbegun hreq hdec
  obtain ⟨x, hone, hsel, hcsN, hsck, htwo, hu⟩ := runSteps_settle hrst hph hfine hmode hbegun hreq hdec
  have hrun (n : Nat) : runSteps (2 + n) s = runSteps n (enterSettle x) := runSteps_add 2 n htwo
  obtain ⟨hdeselect, hidle⟩ := runSteps_deselect hu
  refine ⟨⟨x, hone, hsel, hcsN, hsck⟩, ⟨_, htwo, rfl, hcsN, hsck, rfl, rfl⟩,
    fun k hk => ⟨?low, ?sample, ?high⟩, ?deselect, ?idle⟩
  case low => rw [show 3 + 3 * k = 2 + (3 * k + 1) by ring, hrun]; exact runSteps_bitLow hu hk
  case sample => rw [show 4 + 3 * k = 2 + (3 * k + 2) by ring, hrun]; exact runSteps_bitSample hu hk
  case high => rw [show 5 + 3 * k = 2 + (3 * k + 3) by ring, hrun]; exact runSteps_bitHigh hu hk
  case deselect => rw [hrun 97]; exact hdeselect
  case idle => rw [hrun 98]; exact hidle

/-! ## The least time of a read -/

/-- Time adds up along the transitions. -/
theorem leastTime_add (m n : Nat) (s : State) : leastTime (m + n) s = leastTime m s + leastTime n (tick^[m] s) := by
  induction m generalizing s with
  | zero => simp [leastTime]
  | succ m ih =>
    rw [Nat.add_right_comm, leastTime, ih, leastTime, Function.iterate_succ_apply, Nat.add_assoc]

section LeastTime

variable {u : State} (h : AtSettle .bitBang u)
include h

/-- One cycle waits while the clock is low and while it is high (R242). -/
theorem leastTime_cycle {k : Nat} (hk : k < 32) : leastTime 3 (tick^[3 * k + 1] u) = 2 * Config.tHold := by
  have hlow : (tick^[3 * k + 1] u).ph = .bitLow := by rw [tick_iterate_bitLow h hk]; rfl
  have hsample : (tick (tick^[3 * k + 1] u)).ph = .bitSample := by rw [tick_bitLow hlow]; rfl
  have hhigh : (tick (tick (tick^[3 * k + 1] u))).ph = .bitHigh := by
    have htick : tick (tick (tick^[3 * k + 1] u)) = tick^[3 * (k + 1)] u := by
      simp only [Nat.mul_add, Function.iterate_succ_apply']
    rw [htick, tick_iterate_cycles h hk, bitCycle_iterate]
  simp only [leastTime, hlow, hsample, hhigh, leastWait]
  ring

/-- The settling time and `k` cycles (R242). -/
theorem leastTime_cycles {k : Nat} (hk : k ≤ 32) :
    leastTime (3 * k + 1) u = Config.tSettle + k * (2 * Config.tHold) := by
  induction k with
  | zero => simp [leastTime, h.ph, leastWait]
  | succ k ih =>
    rw [show 3 * (k + 1) + 1 = 3 * k + 1 + 3 by ring, leastTime_add, ih (by omega), leastTime_cycle h hk]
    ring

end LeastTime

/-- Settles O24: selecting and deselecting the chip takes no time of its own. -/
theorem bitBangReadLeastTime : Obligations.BitBangReadLeastTime := by
  intro s hph hmode
  have hu : AtSettle .bitBang (enterSettle s) := hmode ▸ atSettle_enterSettle s
  have hdeselect : leastTime 1 (tick^[97] (enterSettle s)) = 0 := by
    rw [tick_iterate_deselect hu]
    rfl
  have hselect : leastTime 99 s = leastTime 98 (enterSettle s) := by
    rw [leastTime, hph, tick_select hph, leastWait, Nat.zero_add]
  have hlast : leastTime 98 (enterSettle s) = leastTime 97 (enterSettle s) := by
    rw [leastTime_add 97 1, hdeselect, Nat.add_zero]
  rw [hselect, hlast, leastTime_cycles hu (k := 32) le_rfl]
  ring

/-! ## The end of a busy block -/

/-- How many transitions a block that meets the invariant still has before it, at most. -/
def transitionsLeft (s : State) : Nat :=
  match s.ph with
  | .idle => 0
  | .initPins => 100
  | .select => 99
  | .settle => 98
  | .bitLow => 1 + 3 * (32 - s.bitcnt.toNat)
  | .bitSample => 3 + 3 * (32 - s.bitcnt.toNat)
  | .bitHigh => 2 + 3 * (32 - s.bitcnt.toNat)
  | .deselect => 1

/-- Each transition is one less, the counter being in its range. -/
theorem transitionsLeft_lt {s t : State} (hinv : Inv s) (h : Transition s t) :
    transitionsLeft t < transitionsLeft s := by
  have hlt : ∀ n : BitVec 6, n < 32 → n.toNat < 32 ∧ (n + 1).toNat = n.toNat + 1 ∧ (n + 8).toNat = n.toNat + 8 := by
    decide
  cases h with
  | select hph | endPins hph | settle hph => simp [transitionsLeft, hph]
  | firstBit hph | firstByte hph =>
    obtain ⟨-, -, hcnt⟩ := hinv.settle hph
    simp [transitionsLeft, hph, hcnt]
  | sample hph =>
    obtain ⟨-, -, -, hcnt⟩ := hinv.bitLow hph
    obtain ⟨hcnt, hnext, -⟩ := hlt _ hcnt
    simp only [transitionsLeft, hph, enterBitSample_fields, hnext]
    omega
  | clockHigh hph => simp [transitionsLeft, hph]
  | nextByte hph hmode hcnt =>
    obtain ⟨hcnt, -, hnext⟩ := hlt _ hcnt
    simp only [transitionsLeft, hph, enterBurstByte_fields, hnext]
    omega
  | nextBit hph hcnt => simp [transitionsLeft, hph]
  | lastByte hph | lastBit hph => simp [transitionsLeft, hph]; omega
  | endRead hph =>
    rw [finishRead_eq]
    simp [transitionsLeft, hph]

/-- No phase has more than 100 transitions before it. -/
theorem transitionsLeft_le {s : State} (hinv : Inv s) : transitionsLeft s ≤ 100 := by
  have hpos : ∀ n : BitVec 6, 0 < n → 0 < n.toNat := by decide
  cases hph : s.ph with
  | idle | initPins | select | settle | deselect => simp [transitionsLeft, hph]
  | bitLow =>
    simp only [transitionsLeft, hph]
    omega
  | bitSample =>
    obtain ⟨-, hcnt, -⟩ := hinv.bitSample hph
    have := hpos _ hcnt
    simp only [transitionsLeft, hph]
    omega
  | bitHigh =>
    simp only [transitionsLeft, hph]
    omega

/-- The operation is done when the block is idle again (R134, R243). -/
theorem done_of_transition {s t : State} (h : Transition s t) (hidle : t.ph = .idle) : t.done = true := by
  cases h with
  | endPins => rfl
  | endRead hph => rw [finishRead_eq]
  | select | settle | firstBit | firstByte | sample | clockHigh | nextByte | lastByte | nextBit | lastBit =>
    simp at hidle

/-- A busy block that meets the invariant comes to `IDLE` within its transitions left, by induction on them. -/
theorem reaches_idle {s : State} {m : Nat} (hinv : Inv s) (hbusy : s.ph ≠ .idle) (hrst : s.rst = false)
    (hreq : s.request = none) (hm : transitionsLeft s ≤ m) :
    ∃ n ≤ m, ∃ t, runSteps n s = .next t ∧ t.ph = .idle ∧ t.csN = 1 ∧ t.done = true := by
  induction m generalizing s with
  | zero =>
    have := transitionsLeft_lt hinv (transition_tick hbusy)
    omega
  | succ m ih =>
    have htick := transition_tick hbusy
    have hinv' := inv_of_transition hinv htick
    have hless := transitionsLeft_lt hinv htick
    obtain ⟨-, hbegun, hrst', hreq', -⟩ := htick.keeps
    have hstep := step_busy hrst hreq hbusy
    by_cases hidle : (tick s).ph = .idle
    · exact ⟨1, by omega, _, runSteps_succ 0 hstep, hidle,
        hinv'.idle_deselected hidle (hbegun.trans (hinv.busy_begun hbusy)), done_of_transition htick hidle⟩
    · obtain ⟨n, hn, t, hrun, hend⟩ := ih hinv' hidle (hrst'.trans hrst) (hreq'.trans hreq) (by omega)
      exact ⟨n + 1, by omega, t, (runSteps_succ n hstep).trans hrun, hend⟩

/-- Settles O22: a block that meets the invariant has at most 100 transitions left. -/
theorem busyBlockReachesIdle : Obligations.BusyBlockReachesIdle := fun _ hinv hbusy hrst hreq =>
  reaches_idle hinv hbusy hrst hreq (transitionsLeft_le hinv)

/-! ## The first read -/

/-- The block whose pins `INIT_PINS` has just established (R124). -/
def withPins (s : State) : State :=
  { s with begun := true, csN := 1, sck := if s.mode = .bitBang then 0 else s.sck }

/-- The next command of a block is that of the block with its pins established. -/
theorem taken_withPins {s u : State} {c : Command} (h : Taken s c u) : Taken (withPins s) c (withPins u) := by
  rcases h with ⟨hreq, rfl⟩ | ⟨hreq, cs, hqueue, rfl⟩
  · exact .inl ⟨hreq, rfl⟩
  · exact .inr ⟨hreq, cs, hqueue, rfl⟩

/-- After `INIT_PINS` a read selects the chip as the read of a block with established pins does at once (R122, R234). -/
theorem tick_startInitPins {a : Activity} (ha : IsRead a) (u : State) :
    tick (startInitPins a u) = startRead a (withPins u) := by
  rw [tick_initPins_of_read (by simp [startInitPins]) (by simpa [startInitPins] using ha),
    startRead_of_begun (s := withPins u) rfl, startInitPins_eq]
  rfl

/-- Settles O55: the first read's extra event leaves the very state in which a later read selects the chip. -/
theorem firstReadInsertsInitPins : Obligations.FirstReadInsertsInitPins := by
  intro s c i n hrst hph hfine hbegun hpresented hdec hread
  obtain ⟨u, htaken⟩ : ∃ u, Taken s c u := by
    rcases hpresented with hreq | ⟨hreq, cs, hqueue⟩
    · exact ⟨_, .inl ⟨hreq, rfl⟩⟩
    · exact ⟨_, .inr ⟨hreq, cs, hqueue, rfl⟩⟩
  obtain ⟨a, ha, hstart⟩ : ∃ a, IsRead a ∧ ∀ v, startPhase i v = some (startRead a v) := by
    rcases hread with rfl | rfl
    · exact ⟨_, .inl rfl, fun _ => rfl⟩
    · exact ⟨_, .inr rfl, fun _ => rfl⟩
  have hu := htaken.eq
  have hfirst : step s = .next (startInitPins a u) := by
    rw [step_begin hrst hph htaken hdec hfine (hstart u), startRead_of_not_begun (by rwa [hu])]
  have hsecond : step (startInitPins a u) = .next (startRead a (withPins u)) := by
    rw [step_busy (by rw [startInitPins_eq, hu]; exact hrst) (by rw [startInitPins_eq, hu])
      (by rw [startInitPins_eq]; exact Phase.noConfusion), tick_startInitPins ha]
  have hlater : step (withPins s) = .next (startRead a (withPins u)) :=
    step_begin hrst hph (taken_withPins htaken) hdec hfine (hstart _)
  refine ⟨⟨_, runSteps_succ 0 hfirst, ?pins⟩, ?runs⟩
  case pins =>
    rw [startInitPins_eq]
    exact ⟨rfl, rfl, rfl, fun hmode => if_pos (by rw [hu]; exact hmode)⟩
  case runs =>
    exact ((runSteps_succ (n + 1) hfirst).trans (runSteps_succ n hsecond)).trans (runSteps_succ n hlater).symm

end Sys2Proof.Proofs.Events
end

section
/-! PROOFS. No transition depends on the data line (R134): what the sequencer decides by is a part of the state that a
step computes from that part alone. -/

namespace Sys2Proof.Proofs.DataLine

open Sys2Proof.Machine Sys2Proof.Safety Sys2Proof.Proofs.Memory Sys2Proof.Proofs.BitTransport
open Sys2Proof.Proofs.Exceptions Sys2Proof.Proofs.Operations Sys2Proof.Proofs.Decoding
open Sys2Proof.Proofs.Steps Sys2Proof.Proofs.Invariant

/-- What the sequencer decides by, with the data of the line and all that is made of it blotted out. -/
def control (s : State) : State :=
  { s with acc := 0, mask := 0, errflags := 0, intraw := 0, res := .none, sdi := [], samples := 0 }

/-- Equal parts are the same control. -/
theorem sameControl_of_control_eq {s t : State} (h : control s = control t) : SameControl s t where
  ph := (congrArg State.ph h :)
  bitcnt := (congrArg State.bitcnt h :)
  begun := (congrArg State.begun h :)
  csN := (congrArg State.csN h :)
  sck := (congrArg State.sck h :)
  mode := (congrArg State.mode h :)
  active := (congrArg State.active h :)
  request := (congrArg State.request h :)
  queue := (congrArg State.queue h :)
  rst := (congrArg State.rst h :)
  done := (congrArg State.done h :)
  fine := (congrArg State.fine h :)

/-- Both end in states with the same control, or both are refused for one reason. -/
def SameEnd (o p : Host.Outcome State Fault Refusal) : Prop :=
  (∃ t u, o = .next t ∧ p = .next u ∧ control t = control u) ∨ ∃ r, o = .refused r ∧ p = .refused r

/-- Two ends that are the same as a third. -/
theorem SameEnd.trans_symm {o p q : Host.Outcome State Fault Refusal} (ho : SameEnd o q) (hp : SameEnd p q) :
    SameEnd o p := by
  rcases ho with ⟨t, u, rfl, rfl, htu⟩ | ⟨r, rfl, rfl⟩
  · rcases hp with ⟨t', u', rfl, hq, htu'⟩ | ⟨r, -, hq⟩
    · cases hq
      exact .inl ⟨t, t', rfl, rfl, htu.trans htu'.symm⟩
    · cases hq
  · rcases hp with ⟨t', u', -, hq, -⟩ | ⟨r', rfl, hq⟩
    · cases hq
    · cases hq
      exact .inr ⟨r, rfl, rfl⟩

/-- A transition is decided by the control (R134). -/
theorem control_of_transition {s t : State} (h : Transition s t) : control t = control (tick (control s)) := by
  cases h with
  | select hph hread => rw [tick_initPins_of_read (s := control s) hph hread]; rfl
  | endPins hph hread => rw [tick_initPins_of_not_read (s := control s) hph hread]; rfl
  | settle hph => rw [tick_select (s := control s) hph]; rfl
  | firstBit hph hmode => rw [tick_settle_bitBang (s := control s) hph hmode]; rfl
  | firstByte hph hmode => rw [tick_settle_burst (s := control s) hph hmode]; rfl
  | sample hph => rw [tick_bitLow (s := control s) hph]; rfl
  | clockHigh hph hmode => rw [tick_bitSample_bitBang (s := control s) hph hmode]; rfl
  | nextByte hph hmode hcnt => rw [tick_bitSample_burst (s := control s) hph hmode hcnt]; rfl
  | lastByte hph hmode hcnt => rw [tick_bitSample_burst_last (s := control s) hph hmode hcnt]; rfl
  | nextBit hph hcnt => rw [tick_bitHigh (s := control s) hph hcnt]; rfl
  | lastBit hph hcnt => rw [tick_bitHigh_last (s := control s) hph hcnt]; rfl
  | endRead hph => rw [tick_deselect (s := control s) hph, finishRead_eq s, finishRead_eq (control s)]; rfl

/-- The control after a whole operation is decided by the control before it. -/
theorem exec_sameEnd_control (i : Instr) (s : State) : SameEnd (exec i s) (exec i (control s)) := by
  cases i with
  | initialise | initPins => exact .inl ⟨_, _, exec_initPins s, exec_initPins (control s), rfl⟩
  | readExtC => exact .inl ⟨_, _, exec_readExtC s, exec_readExtC (control s), rfl⟩
  | read32 => exact .inl ⟨_, _, exec_read32 s, exec_read32 (control s), rfl⟩
  | read32BitBang =>
    cases hmode : s.mode with
    | bitBang => exact .inl ⟨_, _, exec_read32BitBang hmode, exec_read32BitBang (s := control s) hmode, rfl⟩
    | burst =>
      exact .inr ⟨_, (bitBangTransferShiftsIn32Samples s).2 hmode,
        (bitBangTransferShiftsIn32Samples (control s)).2 hmode⟩
  | read32Burst =>
    cases hmode : s.mode with
    | burst => exact .inl ⟨_, _, exec_read32Burst hmode, exec_read32Burst (s := control s) hmode, rfl⟩
    | bitBang =>
      exact .inr ⟨_, (burstTransferConcatenatesFourBytes s).2 hmode,
        (burstTransferConcatenatesFourBytes (control s)).2 hmode⟩
  | decode v => exact .inl ⟨_, _, exec_decode v s, exec_decode v (control s), rfl⟩
  | readIntC | getErr | setMask | classify | decode16 | decode32 | intC => exact .inl ⟨_, _, rfl, rfl, rfl⟩

/-- The pins of a first phase are decided by the control. -/
theorem control_startInitPins (a : Activity) (s : State) :
    control (startInitPins a s) = control (startInitPins a (control s)) := by
  rw [startInitPins_eq, startInitPins_eq]
  rfl

/-- Whether a read begins with `INIT_PINS` is decided by the control (R122). -/
theorem control_startRead (a : Activity) (s : State) :
    control (startRead a s) = control (startRead a (control s)) := by
  cases hbegun : s.begun with
  | false =>
    rw [startRead_of_not_begun hbegun, startRead_of_not_begun (s := control s) hbegun]
    exact control_startInitPins a s
  | true =>
    rw [startRead_of_begun hbegun, startRead_of_begun (s := control s) hbegun]
    rfl

/-- The first phase of an operation is decided by the control. -/
theorem control_startPhase (i : Instr) (s : State) :
    (startPhase i s).map control = (startPhase i (control s)).map control := by
  cases i with
  | initialise | initPins => exact congrArg some (control_startInitPins _ s)
  | readExtC | read32 => exact congrArg some (control_startRead _ s)
  | readIntC | getErr | setMask | read32BitBang | read32Burst | decode | classify | decode16 | decode32 | intC => rfl

/-- What the host presents is part of the control. -/
theorem taken_control {s u : State} {c : Command} (h : Taken s c u) : Taken (control s) c (control u) := by
  rcases h with ⟨hreq, rfl⟩ | ⟨hreq, cs, hqueue, rfl⟩
  · exact .inl ⟨hreq, rfl⟩
  · exact .inr ⟨hreq, cs, hqueue, rfl⟩

/-- The step that takes a command is decided by the control. -/
theorem step_sameEnd_of_taken {s u : State} {c : Command} (hrst : s.rst = false) (hph : s.ph = .idle)
    (htaken : Taken s c u) : SameEnd (step s) (step (control s)) := by
  have htaken' := taken_control htaken
  cases hdec : decodeCommand c with
  | error e =>
    exact .inr ⟨_, step_undecodable hrst hph htaken hdec, step_undecodable (s := control s) hrst hph htaken' hdec⟩
  | ok i =>
    cases hfine : s.fine with
    | false =>
      rw [step_whole hrst hph htaken hdec hfine, step_whole (s := control s) hrst hph htaken' hdec hfine]
      exact exec_sameEnd_control i u
    | true =>
      have hphase := control_startPhase i u
      cases hstart : startPhase i u with
      | none =>
        rw [hstart, Option.map_none, eq_comm, Option.map_eq_none_iff] at hphase
        rw [step_unsequenced hrst hph htaken hdec hfine hstart,
          step_unsequenced (s := control s) hrst hph htaken' hdec hfine hphase]
        exact exec_sameEnd_control i u
      | some x =>
        rw [hstart, Option.map_some, eq_comm, Option.map_eq_some_iff] at hphase
        obtain ⟨y, hstart', hxy⟩ := hphase
        exact .inl ⟨x, y, step_begin hrst hph htaken hdec hfine hstart,
          step_begin (s := control s) hrst hph htaken' hdec hfine hstart', hxy.symm⟩

/-- Every step is decided by the control. -/
theorem step_sameEnd_control (s : State) : SameEnd (step s) (step (control s)) := by
  by_cases hph : s.ph = .idle
  · cases hrst : s.rst with
    | true => exact .inl ⟨_, _, step_reset hrst hph, step_reset (s := control s) hrst hph, rfl⟩
    | false =>
      rcases taken_or_nothing s with ⟨c, u, htaken⟩ | ⟨hreq, hqueue⟩
      · exact step_sameEnd_of_taken hrst hph htaken
      · exact .inl ⟨_, _, step_wait hrst hph hreq hqueue, step_wait (s := control s) hrst hph hreq hqueue, rfl⟩
  · cases hrst : s.rst with
    | true => exact .inr ⟨_, step_resetWhileBusy hrst hph, step_resetWhileBusy (s := control s) hrst hph⟩
    | false =>
      cases hreq : s.request with
      | some c => exact .inr ⟨_, step_reentrant hrst hph hreq, step_reentrant (s := control s) hrst hph hreq⟩
      | none =>
        exact .inl ⟨_, _, step_busy hrst hreq hph, step_busy (s := control s) hrst hreq hph,
          control_of_transition (transition_tick hph)⟩

/-- Settles O23: the levels of the line are no part of the control. -/
theorem sequencingIgnoresTheDataLine : Obligations.SequencingIgnoresTheDataLine := fun s levels =>
  ((step_sameEnd_control s).trans_symm (step_sameEnd_control { s with sdi := levels })).imp_left
    fun ⟨t, u, ht, hu, hcontrol⟩ => ⟨t, u, ht, hu, sameControl_of_control_eq hcontrol⟩

end Sys2Proof.Proofs.DataLine
end
